-- ==== Sys2Proof/Word.lean ====
section
/-! DEFINITION. The word types of the block: register words and payload bytes (spec/00_scope.md R7), device
addresses and register numbers (spec/20_memory.md R51), 24-bit results (spec/30_encoding.md R103). -/

namespace Sys2Proof

/-- A payload byte, a register number or a command word (20_memory.md R51, 30_encoding.md R108). -/
abbrev Byte := BitVec 8

/-- A 16-bit register word; bit 0 is the least significant bit (00_scope.md R7). -/
abbrev Word := BitVec 16

/-- A 7-bit device address on the bus (20_memory.md R51). -/
abbrev Addr7 := BitVec 7

/-- A 24-bit two's-complement capacitance result (10_state.md R32). -/
abbrev Word24 := BitVec 24

end Sys2Proof
end

