-- ==== Sys2Proof/Syntax.lean ====
section
/-! DEFINITION. The value types that cross the command port (spec/10_state.md R23, R29 to R36) and the operations
of the block, one constructor for each row of spec/opcode_table.json (spec/30_encoding.md R110). -/

namespace Sys2Proof

/-! ## The ADC configuration (10_state.md R23) -/

/-- `os`, the trigger value written: `idle` starts nothing, `start` starts one conversion (30_encoding.md R83). -/
inductive Os where | idle | start
  deriving DecidableEq, Repr

/-- `mux`, the eight input combinations (30_encoding.md R84). -/
inductive Mux where | mux0 | mux1 | mux2 | mux3 | mux4 | mux5 | mux6 | mux7
  deriving DecidableEq, Repr

/-- `pga`, the six gain ranges (30_encoding.md R85). -/
inductive Pga where | g0 | g1 | g2 | g3 | g4 | g5
  deriving DecidableEq, Repr

/-- `mode` (30_encoding.md R86). -/
inductive Mode where | continuous | single
  deriving DecidableEq, Repr

/-- `dr`, the eight data rates (30_encoding.md R87). -/
inductive Dr where | dr0 | dr1 | dr2 | dr3 | dr4 | dr5 | dr6 | dr7
  deriving DecidableEq, Repr

/-- `comp_mode` (30_encoding.md R88). -/
inductive CompMode where | traditional | window
  deriving DecidableEq, Repr

/-- `comp_pol` (30_encoding.md R89). -/
inductive CompPol where | activeLow | activeHigh
  deriving DecidableEq, Repr

/-- `comp_lat` (30_encoding.md R90). -/
inductive CompLat where | nonLatching | latching
  deriving DecidableEq, Repr

/-- `comp_que` (30_encoding.md R91). -/
inductive CompQue where | after1 | after2 | after4 | disabled
  deriving DecidableEq, Repr

/-- `RegisterConfiguration` of the ADC: nine independent fields (10_state.md R23). -/
structure AdcCfg where
  os : Os
  mux : Mux
  pga : Pga
  mode : Mode
  dr : Dr
  compMode : CompMode
  compPol : CompPol
  compLat : CompLat
  compQue : CompQue
  deriving DecidableEq, Repr

/-- The status that bit 15 of a CONFIG word means when it is read (30_encoding.md R83). -/
inductive AdcStatus where | idle | converting
  deriving DecidableEq, Repr

/-- The names of the nine fields, an operand of ADC.WITH (40_adc.md R134). -/
inductive AdcField where | os | mux | pga | mode | dr | compMode | compPol | compLat | compQue
  deriving DecidableEq, Repr

/-- A value of one of the nine fields' types, an operand of ADC.WITH (40_adc.md R134). -/
inductive AdcFieldValue where
  | os (v : Os)
  | mux (v : Mux)
  | pga (v : Pga)
  | mode (v : Mode)
  | dr (v : Dr)
  | compMode (v : CompMode)
  | compPol (v : CompPol)
  | compLat (v : CompLat)
  | compQue (v : CompQue)
  deriving DecidableEq, Repr

/-! ## The capacitance values (10_state.md R30 to R32) -/

/-- A channel selector of a measurement configuration (30_encoding.md R95). -/
inductive CapChannel where | cin1 | cin2 | cin3 | cin4 | capdac | disabled
  deriving DecidableEq, Repr

/-- `MeasurementConfiguration`; `capdac` is 0 to 31 (10_state.md R30). -/
structure MeasCfg where
  cha : CapChannel
  chb : CapChannel
  capdac : BitVec 5
  deriving DecidableEq, Repr

/-- The three output rates (10_state.md R26). -/
inductive Rate where | r100 | r200 | r400
  deriving DecidableEq, Repr

/-- `TriggerConfiguration`; index n of the flags is the slot number (10_state.md R31). -/
structure TrigCfg where
  reset : Bool
  rate : Rate
  rep : Bool
  init : Vector Bool 4
  done : Vector Bool 4
  deriving DecidableEq, Repr

/-- The range-classified result of CAP.READ (10_state.md R32). -/
inductive RangeResult where
  | inRange (raw : Int) (capdac : Nat)
  | overflow
  | underflow
  deriving DecidableEq, Repr

/-! ## The frame, the lines and the delay units -/

/-- `ShiftRegisterFrame`: 16 boolean outputs by position (10_state.md R33). -/
abbrev Frame := Vector Bool 16

/-- The three output lines (20_memory.md R61). -/
inductive Line where | ser | srclk | rclk
  deriving DecidableEq, Repr

/-- The two units of the delay port (20_memory.md R63). -/
inductive TimeUnit where | us | ms
  deriving DecidableEq, Repr

/-! ## Operations -/

/-- The operations of the command port (30_encoding.md R110) and, last, the seven register-word rows of the
table (30_encoding.md R80), whose constructors hold the value the word stands for. -/
inductive Instr where
  -- unit U1, 40_adc.md
  | adcNew (addr : Addr7)
  | adcEnc (cfg : AdcCfg)
  | adcDec (w : Word)
  | adcWith (cfg : AdcCfg) (field : AdcField) (value : AdcFieldValue)
  | adcWrcfg (cfg : Option AdcCfg)
  | adcRdcfg
  | adcRdsingle (mux : Option Mux)
  | adcRdv
  | adcRdy
  | adcScale (raw : BitVec 16) (pga : Pga)
  -- unit U2, 41_cap.md
  | capEncm (meas : MeasCfg)
  | capDecm (w : Word)
  | capEnct (trig : TrigCfg)
  | capDect (w : Word)
  | capAsm (m l : Word)
  | capSetrate (rate : Rate)
  | capMeas (ch capdac : Nat)
  | capRead (ch : Nat)
  | capPf (raw : Word24) (capdac : Nat)
  | capAf (raw : Word24) (capdac : Nat)
  -- unit U3, 42_shift.md
  | srSet (idx : Nat)
  | srClr (idx : Nat)
  | srGet (idx : Nat)
  | srPack
  | srTx (w : Word)
  | srFlush
  | srApplyclr (idx : Nat)
  | srClrapply (idx : Nat)
  -- unit U4, 43_pwm.md
  | pwmDiv (f : BitVec 32)
  | pwmTop (f : BitVec 32) (phaseCorrect : Bool)
  | pwmCmp (duty : Rat) (top : Nat)
  | pwmSet (f : BitVec 32) (dutyA dutyB : Rat) (phaseCorrect : Bool)
  -- register words, 30_encoding.md R82, R92, R94, R98, R103, R104
  | wordAdcConfig (cfg : AdcCfg) (status : AdcStatus)
  | wordAdcConv (raw : BitVec 16)
  | wordCapConf (meas : MeasCfg)
  | wordCapTrig (trig : TrigCfg)
  | wordCapMsb (high : Word)
  | wordCapLsb (low : Byte)
  | wordSrFrame (frame : Frame)
  deriving DecidableEq, Repr

end Sys2Proof
end

