-- ==== Sys2Proof/Config.lean ====
section
/-! DEFINITION. The parameters of the machine (spec/00_scope.md R5) as one record of plain data, the answers a
device can give (spec/20_memory.md R55 to R57), and the free answers: constants without a body. -/

namespace Sys2Proof

/-- A field of a register format: bits `[lo + width - 1 : lo]` (30_encoding.md R81). -/
structure BitField where
  lo : Nat
  width : Nat
  deriving DecidableEq, Repr

/-- `ADC_LAYOUT`: the position of each CONFIG field (30_encoding.md R82). -/
structure AdcLayout where
  os : BitField
  mux : BitField
  pga : BitField
  mode : BitField
  dr : BitField
  compMode : BitField
  compPol : BitField
  compLat : BitField
  compQue : BitField
  deriving DecidableEq, Repr

/-- `ADC_CODES`: the code of every value of the eight fields that have a code table, by the value's place in its
type (30_encoding.md R84 to R91). The polarity of `os` is fixed (R83). -/
structure AdcCodes where
  mux : Vector Nat 8
  pga : Vector Nat 6
  mode : Vector Nat 2
  dr : Vector Nat 8
  compMode : Vector Nat 2
  compPol : Vector Nat 2
  compLat : Vector Nat 2
  compQue : Vector Nat 4
  deriving DecidableEq, Repr

/-- `CAP_MEAS_LAYOUT` (30_encoding.md R94). -/
structure CapMeasLayout where
  cha : BitField
  chb : BitField
  capdac : BitField
  deriving DecidableEq, Repr

/-- `CAP_TRIG_LAYOUT` (30_encoding.md R98, R100). -/
structure CapTrigLayout where
  reset : BitField
  rate : BitField
  rep : BitField
  init : Vector BitField 4
  done : Vector BitField 4
  deriving DecidableEq, Repr

/-- `CAP_CODES`: channel codes in the order CIN1 to CIN4, CAPDAC, DISABLED (30_encoding.md R95) and rate codes in
the order R100, R200, R400 (R99). -/
structure CapCodes where
  channel : Vector Nat 6
  rate : Vector Nat 3
  deriving DecidableEq, Repr

/-- `REAL_REPR`: how the port carries a real value, exactly or in a floating format, which a number names
(00_scope.md R5, R10; notes/assumptions/12.md). -/
inductive RealRepr where
  | exact
  | rounded (format : Nat)
  deriving DecidableEq, Repr

/-- The parameters the machine is built with (00_scope.md R5). -/
structure Params where
  refClkHz : Nat
  adcPollLimit : Option Nat
  capSearchLimit : Option Nat
  adcLayout : AdcLayout
  adcCodes : AdcCodes
  adcFsMv : Vector Nat 6
  adcDefaultCfg : AdcCfg
  capDevAddr : Addr7
  capMeasLayout : CapMeasLayout
  capTrigLayout : CapTrigLayout
  capCodes : CapCodes
  capLsbDiv : Nat
  capStepPf : Rat
  capDacMax : Nat
  pwmTopBits : Nat
  realRepr : RealRepr
  deriving DecidableEq, Repr

/-- The bus port's answer to a write: `ok`, or an error whose value the block does not look at
(20_memory.md R55, R57). -/
inductive WriteReply where
  | ok
  | err (e : Nat)
  deriving DecidableEq, Repr, Inhabited

/-- The bus port's answer to a write-then-read: two payload bytes, or an error (20_memory.md R56, R57). -/
inductive ReadReply where
  | ok (b0 b1 : Byte)
  | err (e : Nat)
  deriving DecidableEq, Repr, Inhabited

namespace Config

/-- The free answer to the `n`-th untaped transaction when it is a write of `w` to `(dev, reg)`: any answer
(20_memory.md R57, R70; 93_implementation_defined.md M12, M19; notes/assumptions/2.md). -/
opaque deviceWriteReply (n : Nat) (dev : Addr7) (reg : Byte) (w : Word) : WriteReply

/-- The free answer to the `n`-th untaped transaction when it is a read of `(dev, reg)`: any answer
(20_memory.md R57, R70; 93_implementation_defined.md M4, M19, M20; notes/assumptions/2.md). -/
opaque deviceReadReply (n : Nat) (dev : Addr7) (reg : Byte) : ReadReply

/-- The free rounding of a floating format: the real it carries in place of `v` (00_scope.md R10 names no format and no
rounding mode; notes/assumptions/12.md). -/
opaque rounding (format : Nat) (v : Rat) : Rat

end Config

end Sys2Proof
end

