-- ==== Sys2Proof/Machine/Defaults.lean ====
section
/-! DEFINITION. How the port carries a real value (spec/00_scope.md R10), and the default of every parameter (R5). The
values the spec supplies from general knowledge are marked PRESUMED here and in notes/assumptions/8.md to 11.md. -/

namespace Sys2Proof

/-- A real value as the port carries it (00_scope.md R10). -/
def Params.carried (p : Params) (v : Rat) : Rat :=
  match p.realRepr with
  | .exact => v
  | .rounded format => Config.rounding format v

end Sys2Proof

namespace Sys2Proof.Machine

/-- The default `ADC_LAYOUT` (30_encoding.md R82; PRESUMED GK2, notes/assumptions/8.md). -/
def defaultAdcLayout : AdcLayout where
  os := ⟨15, 1⟩
  mux := ⟨12, 3⟩
  pga := ⟨9, 3⟩
  mode := ⟨8, 1⟩
  dr := ⟨5, 3⟩
  compMode := ⟨4, 1⟩
  compPol := ⟨3, 1⟩
  compLat := ⟨2, 1⟩
  compQue := ⟨0, 2⟩

/-- The default `ADC_CODES` (30_encoding.md R84 to R91; PRESUMED GK3, notes/assumptions/8.md). -/
def defaultAdcCodes : AdcCodes where
  mux := #v[0, 1, 2, 3, 4, 5, 6, 7]
  pga := #v[0, 1, 2, 3, 4, 5]
  mode := #v[0, 1]
  dr := #v[0, 1, 2, 3, 4, 5, 6, 7]
  compMode := #v[0, 1]
  compPol := #v[0, 1]
  compLat := #v[0, 1]
  compQue := #v[0, 1, 2, 3]

/-- The default `ADC_FS_MV`, millivolts by gain (30_encoding.md R85; PRESUMED GK3 but for G2). -/
def defaultAdcFsMv : Vector Nat 6 := #v[6144, 4096, 2048, 1024, 512, 256]

/-- The default `ADC_DEFAULT_CFG` (10_state.md R23; PRESUMED GK4, notes/assumptions/9.md). -/
def defaultAdcDefaultCfg : AdcCfg where
  os := .idle
  mux := .mux0
  pga := .g2
  mode := .single
  dr := .dr4
  compMode := .traditional
  compPol := .activeLow
  compLat := .nonLatching
  compQue := .disabled

/-- The default `CAP_MEAS_LAYOUT` (30_encoding.md R94; PRESUMED GK8, notes/assumptions/10.md). -/
def defaultCapMeasLayout : CapMeasLayout where
  cha := ⟨13, 3⟩
  chb := ⟨10, 3⟩
  capdac := ⟨5, 5⟩

/-- The default `CAP_TRIG_LAYOUT`: `init[n]` at bit 7 - n, `done[n]` at bit 3 - n (30_encoding.md R98, R100;
PRESUMED GK9, notes/assumptions/10.md). -/
def defaultCapTrigLayout : CapTrigLayout where
  reset := ⟨15, 1⟩
  rate := ⟨10, 2⟩
  rep := ⟨8, 1⟩
  init := #v[⟨7, 1⟩, ⟨6, 1⟩, ⟨5, 1⟩, ⟨4, 1⟩]
  done := #v[⟨3, 1⟩, ⟨2, 1⟩, ⟨1, 1⟩, ⟨0, 1⟩]

/-- The default `CAP_CODES` (30_encoding.md R95, R99; PRESUMED GK10, notes/assumptions/10.md). -/
def defaultCapCodes : CapCodes where
  channel := #v[0, 1, 2, 3, 4, 7]
  rate := #v[1, 2, 3]

/-- Every parameter at its default (00_scope.md R5). -/
def defaultParams : Params where
  refClkHz := 125000000
  adcPollLimit := none
  capSearchLimit := none
  adcLayout := defaultAdcLayout
  adcCodes := defaultAdcCodes
  adcFsMv := defaultAdcFsMv
  adcDefaultCfg := defaultAdcDefaultCfg
  capDevAddr := 0x50
  capMeasLayout := defaultCapMeasLayout
  capTrigLayout := defaultCapTrigLayout
  capCodes := defaultCapCodes
  capLsbDiv := 524288
  capStepPf := 25 / 8
  capDacMax := 31
  pwmTopBits := 16
  realRepr := .exact

end Sys2Proof.Machine
end

