-- ==== Sys2Proof/WellFormed.lean ====
section
/-! DEFINITION. When a record of parameters describes a machine (spec/00_scope.md R5, spec/30_encoding.md R81), and
when an operation's operands lie in the domain the spec gives a meaning (spec/60_exceptions.md R285). -/

namespace Sys2Proof

/-! ## Parameters -/

/-- Two fields share no bit (30_encoding.md R81). -/
abbrev BitField.Disjoint (f g : BitField) : Prop :=
  f.lo + f.width ≤ g.lo ∨ g.lo + g.width ≤ f.lo

/-- A register format: the fields have the given widths, lie in 16 bits and are pairwise disjoint
(30_encoding.md R80, R81). -/
abbrev layoutOk (fields : List BitField) (widths : List Nat) : Prop :=
  fields.map BitField.width = widths ∧ (∀ f ∈ fields, f.lo + f.width ≤ 16) ∧
    fields.Pairwise BitField.Disjoint

/-- A code table: different values have different codes, and every code fits the field (30_encoding.md R81). -/
abbrev codesOk {n : Nat} (width : Nat) (codes : Vector Nat n) : Prop :=
  codes.toList.Nodup ∧ ∀ c ∈ codes.toList, c < 2 ^ width

/-- The nine fields in the order of 30_encoding.md R82. -/
def AdcLayout.fields (l : AdcLayout) : List BitField :=
  [l.os, l.mux, l.pga, l.mode, l.dr, l.compMode, l.compPol, l.compLat, l.compQue]

/-- The three fields in the order of 30_encoding.md R94. -/
def CapMeasLayout.fields (l : CapMeasLayout) : List BitField := [l.cha, l.chb, l.capdac]

/-- The eleven fields in the order of 30_encoding.md R98. -/
def CapTrigLayout.fields (l : CapTrigLayout) : List BitField :=
  [l.reset, l.rate, l.rep, l.init[0], l.init[1], l.init[2], l.init[3],
    l.done[0], l.done[1], l.done[2], l.done[3]]

/-- The widths the value counts force (10_state.md R23). -/
abbrev AdcLayout.Ok (l : AdcLayout) : Prop := layoutOk l.fields [1, 3, 3, 1, 3, 1, 1, 1, 2]

/-- The widths of 30_encoding.md R94. -/
abbrev CapMeasLayout.Ok (l : CapMeasLayout) : Prop := layoutOk l.fields [3, 3, 5]

/-- The widths of 30_encoding.md R98. -/
abbrev CapTrigLayout.Ok (l : CapTrigLayout) : Prop :=
  layoutOk l.fields [1, 2, 1, 1, 1, 1, 1, 1, 1, 1, 1]

/-- Every ADC code table is one (30_encoding.md R84 to R91). -/
abbrev AdcCodes.Ok (c : AdcCodes) : Prop :=
  codesOk 3 c.mux ∧ codesOk 3 c.pga ∧ codesOk 1 c.mode ∧ codesOk 3 c.dr ∧ codesOk 1 c.compMode ∧
    codesOk 1 c.compPol ∧ codesOk 1 c.compLat ∧ codesOk 2 c.compQue

/-- Both capacitance code tables are one (30_encoding.md R95, R99). -/
abbrev CapCodes.Ok (c : CapCodes) : Prop := codesOk 3 c.channel ∧ codesOk 2 c.rate

/-- The parameters describe a machine: the reference clock is positive, the layouts and code tables are such, a new
configuration does not start a conversion (10_state.md R23, R24), a calibration value fits its five bits
(30_encoding.md R96), and there is a positive number of counts per picofarad (00_scope.md R5). A limit of 0 on the polls
or on the search is let in (DESIGN CHOICE, notes/assumptions/33.md). -/
abbrev Params.Valid (p : Params) : Prop :=
  0 < p.refClkHz ∧ p.adcLayout.Ok ∧ p.adcCodes.Ok ∧ p.adcDefaultCfg.os = .idle ∧
    p.capMeasLayout.Ok ∧ p.capTrigLayout.Ok ∧ p.capCodes.Ok ∧ 0 < p.capLsbDiv ∧ p.capDacMax ≤ 31

/-! ## Operands -/

/-- The field a value belongs to (40_adc.md R134). -/
def AdcFieldValue.field : AdcFieldValue → AdcField
  | .os _ => .os
  | .mux _ => .mux
  | .pga _ => .pga
  | .mode _ => .mode
  | .dr _ => .dr
  | .compMode _ => .compMode
  | .compPol _ => .compPol
  | .compLat _ => .compLat
  | .compQue _ => .compQue

/-- A duty in per cent, as the port carries it, lies in its domain (43_pwm.md R251, 00_scope.md R10). -/
def dutyInDomain (p : Params) (duty : Rat) : Bool := decide (0 ≤ p.carried duty) && decide (p.carried duty ≤ 100)

/-- A frequency lies in its domain (43_pwm.md R251). -/
def frequencyInDomain (p : Params) (f : BitVec 32) : Bool :=
  decide (1 ≤ f.toNat) && decide (f.toNat ≤ p.refClkHz)

/-- The operands lie in the domain the operation table gives them (43_pwm.md R251, 70_reset_and_hazards.md R308,
R315; 40_adc.md R134); outside it the spec gives no meaning (60_exceptions.md R285). An index is any natural number:
one above 15 ends the operation with an outcome of its own (42_shift.md R221). A CONFIG word that was read has
`os = idle` (30_encoding.md R83). -/
def Instr.wellFormed (p : Params) : Instr → Bool
  | .adcNew _ => true
  | .adcEnc _ => true
  | .adcDec _ => true
  | .adcWith _ field value => decide (value.field = field)
  | .adcWrcfg _ => true
  | .adcRdcfg => true
  | .adcRdsingle _ => true
  | .adcRdv => true
  | .adcRdy => true
  | .adcScale _ _ => true
  | .capEncm _ => true
  | .capDecm _ => true
  | .capEnct _ => true
  | .capDect _ => true
  | .capAsm _ _ => true
  | .capSetrate _ => true
  | .capMeas ch capdac => decide (ch ≤ 3) && decide (capdac ≤ p.capDacMax)
  | .capRead ch => decide (ch ≤ 3)
  | .capPf _ capdac => decide (capdac ≤ p.capDacMax)
  | .capAf _ capdac => decide (capdac ≤ p.capDacMax)
  | .srSet _ => true
  | .srClr _ => true
  | .srGet _ => true
  | .srPack => true
  | .srTx _ => true
  | .srFlush => true
  | .srApplyclr _ => true
  | .srClrapply _ => true
  | .pwmDiv f => frequencyInDomain p f
  | .pwmTop f _ => frequencyInDomain p f
  | .pwmCmp duty top => dutyInDomain p duty && decide (top < p.refClkHz)
  | .pwmSet f dutyA dutyB _ => frequencyInDomain p f && dutyInDomain p dutyA && dutyInDomain p dutyB
  | .wordAdcConfig cfg _ => decide (cfg.os = .idle)
  | .wordAdcConv _ => true
  | .wordCapConf _ => true
  | .wordCapTrig _ => true
  | .wordCapMsb _ => true
  | .wordCapLsb _ => true
  | .wordSrFrame _ => true

end Sys2Proof
end

