-- ==== Sys2Proof/Decode.lean ====
section
/-! DEFINITION. The codecs of the register formats (spec/30_encoding.md R80 to R104), the decoder of the command port
(R108 to R111) and, after it, the encoder. -/

namespace Sys2Proof

/-! ## Words and bytes (20_memory.md R52) -/

/-- `w[15:8]`, the byte that crosses the bus first. -/
def hiByte (w : Word) : Byte := w.extractLsb' 8 8

/-- `w[7:0]`, the byte that crosses the bus second. -/
def loByte (w : Word) : Byte := w.extractLsb' 0 8

/-- `b0 ++ b1`: the word two received bytes make, the first the more significant. -/
def joinBytes (b0 b1 : Byte) : Word := b0 ++ b1

/-! ## Fields and code tables (30_encoding.md R81) -/

/-- The word that holds a code in the field and 0 elsewhere. -/
def BitField.put (f : BitField) (code : Nat) : Word := BitVec.ofNat 16 ((code % 2 ^ f.width) <<< f.lo)

/-- The code a word holds in the field. -/
def BitField.get (f : BitField) (w : Word) : Nat := (w.toNat >>> f.lo) % 2 ^ f.width

/-- All fields together; bits of no field are 0. -/
def packFields : List (BitField × Nat) → Word
  | [] => 0
  | (f, code) :: rest => f.put code ||| packFields rest

/-- The place of a code in a code table, if a value has that code. -/
def codeIndex {n : Nat} (codes : Vector Nat n) (code : Nat) : Option (Fin n) :=
  (List.finRange n).find? (fun i => codes[i] == code)

/-- The value a code stands for, `values` being the type's values in the table's order. -/
def valueOfCode {α : Type} {n : Nat} (values : Vector α n) (codes : Vector Nat n) (code : Nat) : Option α :=
  (codeIndex codes code).map (fun i => values[i])

/-- The code of a flag: 1 for true, 0 for false (30_encoding.md R98). -/
def flagCode (b : Bool) : Nat := if b then 1 else 0

/-! ## The places of the values in their types (30_encoding.md R84 to R91, R95, R99) -/

def Mux.index : Mux → Fin 8
  | .mux0 => 0 | .mux1 => 1 | .mux2 => 2 | .mux3 => 3 | .mux4 => 4 | .mux5 => 5 | .mux6 => 6 | .mux7 => 7
def Mux.values : Vector Mux 8 := #v[.mux0, .mux1, .mux2, .mux3, .mux4, .mux5, .mux6, .mux7]

def Pga.index : Pga → Fin 6
  | .g0 => 0 | .g1 => 1 | .g2 => 2 | .g3 => 3 | .g4 => 4 | .g5 => 5
def Pga.values : Vector Pga 6 := #v[.g0, .g1, .g2, .g3, .g4, .g5]

def Mode.index : Mode → Fin 2 | .continuous => 0 | .single => 1
def Mode.values : Vector Mode 2 := #v[.continuous, .single]

def Dr.index : Dr → Fin 8
  | .dr0 => 0 | .dr1 => 1 | .dr2 => 2 | .dr3 => 3 | .dr4 => 4 | .dr5 => 5 | .dr6 => 6 | .dr7 => 7
def Dr.values : Vector Dr 8 := #v[.dr0, .dr1, .dr2, .dr3, .dr4, .dr5, .dr6, .dr7]

def CompMode.index : CompMode → Fin 2 | .traditional => 0 | .window => 1
def CompMode.values : Vector CompMode 2 := #v[.traditional, .window]

def CompPol.index : CompPol → Fin 2 | .activeLow => 0 | .activeHigh => 1
def CompPol.values : Vector CompPol 2 := #v[.activeLow, .activeHigh]

def CompLat.index : CompLat → Fin 2 | .nonLatching => 0 | .latching => 1
def CompLat.values : Vector CompLat 2 := #v[.nonLatching, .latching]

def CompQue.index : CompQue → Fin 4 | .after1 => 0 | .after2 => 1 | .after4 => 2 | .disabled => 3
def CompQue.values : Vector CompQue 4 := #v[.after1, .after2, .after4, .disabled]

def CapChannel.index : CapChannel → Fin 6
  | .cin1 => 0 | .cin2 => 1 | .cin3 => 2 | .cin4 => 3 | .capdac => 4 | .disabled => 5
def CapChannel.values : Vector CapChannel 6 := #v[.cin1, .cin2, .cin3, .cin4, .capdac, .disabled]

def Rate.index : Rate → Fin 3 | .r100 => 0 | .r200 => 1 | .r400 => 2
def Rate.values : Vector Rate 3 := #v[.r100, .r200, .r400]

/-! ## ADC_CONFIG (30_encoding.md R82, R83; 40_adc.md R132, R133) -/

/-- The code of the trigger as it is written: `Idle` 0, `Start` 1 (30_encoding.md R83). -/
def osCode : Os → Nat
  | .idle => 0
  | .start => 1

/-- ADC.ENC: the word of a configuration (40_adc.md R132). -/
def adcEncode (p : Params) (c : AdcCfg) : Word :=
  packFields [
    (p.adcLayout.os, osCode c.os),
    (p.adcLayout.mux, p.adcCodes.mux[c.mux.index]),
    (p.adcLayout.pga, p.adcCodes.pga[c.pga.index]),
    (p.adcLayout.mode, p.adcCodes.mode[c.mode.index]),
    (p.adcLayout.dr, p.adcCodes.dr[c.dr.index]),
    (p.adcLayout.compMode, p.adcCodes.compMode[c.compMode.index]),
    (p.adcLayout.compPol, p.adcCodes.compPol[c.compPol.index]),
    (p.adcLayout.compLat, p.adcCodes.compLat[c.compLat.index]),
    (p.adcLayout.compQue, p.adcCodes.compQue[c.compQue.index])]

/-- The status bit of a CONFIG word that was read: 1 means idle (30_encoding.md R83). -/
def adcStatus (p : Params) (w : Word) : AdcStatus :=
  if p.adcLayout.os.get w = 1 then .idle else .converting

/-- ADC.DEC, the configuration: `os` is `Idle` whatever its bit is; a gain code no gain encodes to is `G5`
(40_adc.md R133, 30_encoding.md R83, R85). With valid parameters no other code is without a value
(notes/assumptions/23.md). -/
def adcDecodeCfg (p : Params) (w : Word) : AdcCfg where
  os := .idle
  mux := (valueOfCode Mux.values p.adcCodes.mux (p.adcLayout.mux.get w)).getD .mux0
  pga := (valueOfCode Pga.values p.adcCodes.pga (p.adcLayout.pga.get w)).getD .g5
  mode := (valueOfCode Mode.values p.adcCodes.mode (p.adcLayout.mode.get w)).getD .continuous
  dr := (valueOfCode Dr.values p.adcCodes.dr (p.adcLayout.dr.get w)).getD .dr0
  compMode := (valueOfCode CompMode.values p.adcCodes.compMode (p.adcLayout.compMode.get w)).getD .traditional
  compPol := (valueOfCode CompPol.values p.adcCodes.compPol (p.adcLayout.compPol.get w)).getD .activeLow
  compLat := (valueOfCode CompLat.values p.adcCodes.compLat (p.adcLayout.compLat.get w)).getD .nonLatching
  compQue := (valueOfCode CompQue.values p.adcCodes.compQue (p.adcLayout.compQue.get w)).getD .after1

/-! ## CAP_CONF (30_encoding.md R94 to R97; 41_cap.md R180, R181) -/

/-- CAP.ENCM: the word of a measurement configuration (41_cap.md R180). -/
def capEncodeMeas (p : Params) (m : MeasCfg) : Word :=
  packFields [
    (p.capMeasLayout.cha, p.capCodes.channel[m.cha.index]),
    (p.capMeasLayout.chb, p.capCodes.channel[m.chb.index]),
    (p.capMeasLayout.capdac, m.capdac.toNat)]

/-- CAP.DECM: nothing when a selector's code stands for no value (41_cap.md R181, 30_encoding.md R112). -/
def capDecodeMeas (p : Params) (w : Word) : Option MeasCfg :=
  match valueOfCode CapChannel.values p.capCodes.channel (p.capMeasLayout.cha.get w),
      valueOfCode CapChannel.values p.capCodes.channel (p.capMeasLayout.chb.get w) with
  | some cha, some chb => some ⟨cha, chb, BitVec.ofNat 5 (p.capMeasLayout.capdac.get w)⟩
  | _, _ => none

/-! ## CAP_TRIG (30_encoding.md R98 to R101; 41_cap.md R182, R183) -/

/-- CAP.ENCT: the word of a trigger configuration (41_cap.md R182). -/
def capEncodeTrig (p : Params) (t : TrigCfg) : Word :=
  packFields [
    (p.capTrigLayout.reset, flagCode t.reset),
    (p.capTrigLayout.rate, p.capCodes.rate[t.rate.index]),
    (p.capTrigLayout.rep, flagCode t.rep),
    (p.capTrigLayout.init[0], flagCode t.init[0]),
    (p.capTrigLayout.init[1], flagCode t.init[1]),
    (p.capTrigLayout.init[2], flagCode t.init[2]),
    (p.capTrigLayout.init[3], flagCode t.init[3]),
    (p.capTrigLayout.done[0], flagCode t.done[0]),
    (p.capTrigLayout.done[1], flagCode t.done[1]),
    (p.capTrigLayout.done[2], flagCode t.done[2]),
    (p.capTrigLayout.done[3], flagCode t.done[3])]

/-- A flag of a word: true when its bit is 1 (30_encoding.md R98). -/
def BitField.flag (f : BitField) (w : Word) : Bool := f.get w == 1

/-- CAP.DECT: nothing when the rate's code stands for no value (41_cap.md R183, 30_encoding.md R112). -/
def capDecodeTrig (p : Params) (w : Word) : Option TrigCfg :=
  (valueOfCode Rate.values p.capCodes.rate (p.capTrigLayout.rate.get w)).map fun rate =>
    { reset := p.capTrigLayout.reset.flag w
      rate := rate
      rep := p.capTrigLayout.rep.flag w
      init := p.capTrigLayout.init.map (fun f => f.flag w)
      done := p.capTrigLayout.done.map (fun f => f.flag w) }

/-! ## CAP_MSB, CAP_LSB and the 24-bit assembly (30_encoding.md R103) -/

/-- `v24 = m[15:0] ++ l[15:8]`; `l[7:0]` is ignored (41_cap.md R186). -/
def capAssemble (m l : Word) : Word24 := m ++ hiByte l

/-! ## SR_FRAME (30_encoding.md R104) -/

/-- Bit `i` of the word is `frame[i]` (42_shift.md R225). -/
def packFrame (frame : Frame) : Word := (BitVec.ofBoolListLE frame.toList).setWidth 16

/-- `frame[i]` is bit `i` of the word. -/
def unpackFrame (w : Word) : Frame := Vector.ofFn (fun i : Fin 16 => w.getLsbD i)

/-! ## The command port (30_encoding.md R108 to R111) -/

/-- An operand as it stands on the command port: a typed value (30_encoding.md R109). An optional operand is absent
or a value. -/
inductive Operand where
  | absent
  | addr (v : Addr7)
  | cfg (v : AdcCfg)
  | word (v : Word)
  | field (v : AdcField)
  | fieldValue (v : AdcFieldValue)
  | mux (v : Mux)
  | pga (v : Pga)
  | sample16 (v : BitVec 16)
  | meas (v : MeasCfg)
  | trig (v : TrigCfg)
  | rate (v : Rate)
  | nat (v : Nat)
  | sample24 (v : Word24)
  | freq (v : BitVec 32)
  | rational (v : Rat)
  | flag (v : Bool)
  deriving DecidableEq, Repr

/-- The seven register formats that have a row of their own in the operation table (30_encoding.md R80). -/
inductive WordFormat where
  | adcConfig | adcConv | capConf | capTrig | capMsb | capLsb | srFrame
  deriving DecidableEq, Repr

/-- What the host can present: an operation, its 8-bit selector and its operands at once (30_encoding.md R108); or a
register word under its format, to be read as the format says (30_encoding.md R81; DESIGN CHOICE,
notes/assumptions/4.md). -/
inductive Command where
  | op (op : Byte) (args : List Operand)
  | reg (fmt : WordFormat) (w : Word)
  deriving DecidableEq, Repr

/-- Why a command is not an operation. -/
inductive DecodeReject where
  /-- The selector is none of the 32 of 30_encoding.md R110 (R111). -/
  | noOperation (op : Byte)
  /-- The operands are not values of the operation's operand types (30_encoding.md R109). -/
  | operandTypes (op : Byte)
  /-- The register word has a code that stands for no value (30_encoding.md R112). -/
  | wordWithoutValue (fmt : WordFormat) (w : Word)
  deriving DecidableEq, Repr

/-- The selectors of the operation map (30_encoding.md R110): unit and number of functions. -/
def isOperation (op : Byte) : Bool :=
  match op.toNat / 16 with
  | 1 => decide (op.toNat % 16 < 10)
  | 2 => decide (op.toNat % 16 < 10)
  | 3 => decide (op.toNat % 16 < 8)
  | 4 => decide (op.toNat % 16 < 4)
  | _ => false

/-- The operation a selector and operands of the right types select (30_encoding.md R110). An optional operand may be
absent, or left out of the list; an absent `phase_correct` means false (30_encoding.md R109, 43_pwm.md R251). -/
def decodeOperation (op : Nat) (args : List Operand) : Option Instr :=
  match op with
  | 0x10 => match args with | [.addr a] => some (.adcNew a) | _ => none
  | 0x11 => match args with | [.cfg c] => some (.adcEnc c) | _ => none
  | 0x12 => match args with | [.word w] => some (.adcDec w) | _ => none
  | 0x13 => match args with | [.cfg c, .field f, .fieldValue v] => some (.adcWith c f v) | _ => none
  | 0x14 => match args with
    | [.cfg c] => some (.adcWrcfg (some c))
    | [.absent] => some (.adcWrcfg none)
    | [] => some (.adcWrcfg none)
    | _ => none
  | 0x15 => match args with | [] => some .adcRdcfg | _ => none
  | 0x16 => match args with
    | [.mux m] => some (.adcRdsingle (some m))
    | [.absent] => some (.adcRdsingle none)
    | [] => some (.adcRdsingle none)
    | _ => none
  | 0x17 => match args with | [] => some .adcRdv | _ => none
  | 0x18 => match args with | [] => some .adcRdy | _ => none
  | 0x19 => match args with | [.sample16 r, .pga g] => some (.adcScale r g) | _ => none
  | 0x20 => match args with | [.meas m] => some (.capEncm m) | _ => none
  | 0x21 => match args with | [.word w] => some (.capDecm w) | _ => none
  | 0x22 => match args with | [.trig t] => some (.capEnct t) | _ => none
  | 0x23 => match args with | [.word w] => some (.capDect w) | _ => none
  | 0x24 => match args with | [.word m, .word l] => some (.capAsm m l) | _ => none
  | 0x25 => match args with | [.rate r] => some (.capSetrate r) | _ => none
  | 0x26 => match args with | [.nat ch, .nat d] => some (.capMeas ch d) | _ => none
  | 0x27 => match args with | [.nat ch] => some (.capRead ch) | _ => none
  | 0x28 => match args with | [.sample24 r, .nat d] => some (.capPf r d) | _ => none
  | 0x29 => match args with | [.sample24 r, .nat d] => some (.capAf r d) | _ => none
  | 0x30 => match args with | [.nat i] => some (.srSet i) | _ => none
  | 0x31 => match args with | [.nat i] => some (.srClr i) | _ => none
  | 0x32 => match args with | [.nat i] => some (.srGet i) | _ => none
  | 0x33 => match args with | [] => some .srPack | _ => none
  | 0x34 => match args with | [.word w] => some (.srTx w) | _ => none
  | 0x35 => match args with | [] => some .srFlush | _ => none
  | 0x36 => match args with | [.nat i] => some (.srApplyclr i) | _ => none
  | 0x37 => match args with | [.nat i] => some (.srClrapply i) | _ => none
  | 0x40 => match args with | [.freq f] => some (.pwmDiv f) | _ => none
  | 0x41 => match args with
    | [.freq f, .flag pc] => some (.pwmTop f pc)
    | [.freq f, .absent] => some (.pwmTop f false)
    | [.freq f] => some (.pwmTop f false)
    | _ => none
  | 0x42 => match args with | [.rational d, .nat t] => some (.pwmCmp d t) | _ => none
  | 0x43 => match args with
    | [.freq f, .rational a, .rational b, .flag pc] => some (.pwmSet f a b pc)
    | [.freq f, .rational a, .rational b, .absent] => some (.pwmSet f a b false)
    | [.freq f, .rational a, .rational b] => some (.pwmSet f a b false)
    | _ => none
  | _ => none

/-- The value a register word stands for under its format (30_encoding.md R81 to R104). -/
def decodeRegisterWord (p : Params) (fmt : WordFormat) (w : Word) : Option Instr :=
  match fmt with
  | .adcConfig => some (.wordAdcConfig (adcDecodeCfg p w) (adcStatus p w))
  | .adcConv => some (.wordAdcConv w)
  | .capConf => (capDecodeMeas p w).map .wordCapConf
  | .capTrig => (capDecodeTrig p w).map .wordCapTrig
  | .capMsb => some (.wordCapMsb w)
  | .capLsb => some (.wordCapLsb (hiByte w))
  | .srFrame => some (.wordSrFrame (unpackFrame w))

/-- The decoder of the command port: total, rejecting by name (30_encoding.md R109 to R112). -/
def decode (p : Params) : Command → Except DecodeReject Instr
  | .op op args =>
    match decodeOperation op.toNat args with
    | some i => .ok i
    | none => if isOperation op then .error (.operandTypes op) else .error (.noOperation op)
  | .reg fmt w =>
    match decodeRegisterWord p fmt w with
    | some i => .ok i
    | none => .error (.wordWithoutValue fmt w)

/-! ## The encoder -/

/-- An optional operand (30_encoding.md R109). -/
def optOperand {α : Type} (mk : α → Operand) : Option α → Operand
  | some v => mk v
  | none => .absent

/-- A CONFIG word as the device answers it: the eight writable fields, and the status in the trigger's bit
(30_encoding.md R82, R83). -/
def adcEncodeRead (p : Params) (c : AdcCfg) (status : AdcStatus) : Word :=
  adcEncode p { c with os := if status = .idle then .start else .idle }

/-- The command of an operation (30_encoding.md R110), or the word of a register-word row (R82 to R104). -/
def encode (p : Params) : Instr → Command
  | .adcNew a => .op 0x10 [.addr a]
  | .adcEnc c => .op 0x11 [.cfg c]
  | .adcDec w => .op 0x12 [.word w]
  | .adcWith c f v => .op 0x13 [.cfg c, .field f, .fieldValue v]
  | .adcWrcfg c => .op 0x14 [optOperand .cfg c]
  | .adcRdcfg => .op 0x15 []
  | .adcRdsingle m => .op 0x16 [optOperand .mux m]
  | .adcRdv => .op 0x17 []
  | .adcRdy => .op 0x18 []
  | .adcScale r g => .op 0x19 [.sample16 r, .pga g]
  | .capEncm m => .op 0x20 [.meas m]
  | .capDecm w => .op 0x21 [.word w]
  | .capEnct t => .op 0x22 [.trig t]
  | .capDect w => .op 0x23 [.word w]
  | .capAsm m l => .op 0x24 [.word m, .word l]
  | .capSetrate r => .op 0x25 [.rate r]
  | .capMeas ch d => .op 0x26 [.nat ch, .nat d]
  | .capRead ch => .op 0x27 [.nat ch]
  | .capPf r d => .op 0x28 [.sample24 r, .nat d]
  | .capAf r d => .op 0x29 [.sample24 r, .nat d]
  | .srSet i => .op 0x30 [.nat i]
  | .srClr i => .op 0x31 [.nat i]
  | .srGet i => .op 0x32 [.nat i]
  | .srPack => .op 0x33 []
  | .srTx w => .op 0x34 [.word w]
  | .srFlush => .op 0x35 []
  | .srApplyclr i => .op 0x36 [.nat i]
  | .srClrapply i => .op 0x37 [.nat i]
  | .pwmDiv f => .op 0x40 [.freq f]
  | .pwmTop f pc => .op 0x41 [.freq f, .flag pc]
  | .pwmCmp d t => .op 0x42 [.rational d, .nat t]
  | .pwmSet f a b pc => .op 0x43 [.freq f, .rational a, .rational b, .flag pc]
  | .wordAdcConfig c status => .reg .adcConfig (adcEncodeRead p c status)
  | .wordAdcConv raw => .reg .adcConv raw
  | .wordCapConf m => .reg .capConf (capEncodeMeas p m)
  | .wordCapTrig t => .reg .capTrig (capEncodeTrig p t)
  | .wordCapMsb h => .reg .capMsb h
  | .wordCapLsb l => .reg .capLsb (l ++ (0 : Byte))
  | .wordSrFrame f => .reg .srFrame (packFrame f)

/-! ## The operation table's words (opcode_table.json) -/

/-- The configuration whose every field has the first value of its type. -/
def zeroCfg : AdcCfg :=
  ⟨.idle, .mux0, .g0, .continuous, .dr0, .traditional, .activeLow, .nonLatching, .after1⟩

/-- The operands of zeros that stand beside a table row's selector: 0, absent, or the first value of the operand's
type (notes/assumptions/19.md). -/
def zeroOperands (op : Nat) : List Operand :=
  match op with
  | 0x10 => [.addr 0]
  | 0x11 => [.cfg zeroCfg]
  | 0x12 => [.word 0]
  | 0x13 => [.cfg zeroCfg, .field .os, .fieldValue (.os .idle)]
  | 0x14 => [.absent]
  | 0x16 => [.absent]
  | 0x19 => [.sample16 0, .pga .g0]
  | 0x20 => [.meas ⟨.cin1, .cin1, 0⟩]
  | 0x21 => [.word 0]
  | 0x22 => [.trig ⟨false, .r100, false, Vector.replicate 4 false, Vector.replicate 4 false⟩]
  | 0x23 => [.word 0]
  | 0x24 => [.word 0, .word 0]
  | 0x25 => [.rate .r100]
  | 0x26 => [.nat 0, .nat 0]
  | 0x27 => [.nat 0]
  | 0x28 => [.sample24 0, .nat 0]
  | 0x29 => [.sample24 0, .nat 0]
  | 0x30 => [.nat 0]
  | 0x31 => [.nat 0]
  | 0x32 => [.nat 0]
  | 0x34 => [.word 0]
  | 0x36 => [.nat 0]
  | 0x37 => [.nat 0]
  | 0x40 => [.freq 0]
  | 0x41 => [.freq 0, .flag false]
  | 0x42 => [.rational 0, .nat 0]
  | 0x43 => [.freq 0, .rational 0, .rational 0, .flag false]
  | _ => []

/-- The format under which a bare 16-bit word of the table is read: the first of CAP_TRIG, CAP_CONF whose encoder can
give the word, else ADC_CONFIG. On the bus it is the register number that decides (20_memory.md R58, R59;
DESIGN CHOICE, notes/assumptions/18.md). -/
def bareWordFormat (w : Word) : WordFormat :=
  if (capDecodeTrig Machine.defaultParams w).map (capEncodeTrig Machine.defaultParams) = some w then .capTrig
  else if (capDecodeMeas Machine.defaultParams w).map (capEncodeMeas Machine.defaultParams) = some w then .capConf
  else .adcConfig

/-- The command an opcode-table row's bits stand for: an 8-bit selector with operands of zeros, or a 16-bit register
word. -/
def tableCommand (nbits w : Nat) : Command :=
  if nbits ≤ 8 then .op (BitVec.ofNat 8 w) (zeroOperands w)
  else .reg (bareWordFormat (BitVec.ofNat 16 w)) (BitVec.ofNat 16 w)

/-- What the decoder reads from a table row's bits, under the default parameters. -/
def decodeTableWord (nbits w : Nat) : Option Instr := (decode Machine.defaultParams (tableCommand nbits w)).toOption

end Sys2Proof
end

