-- ==== Sys2Proof/Machine/State.lean ====
section
/-! DEFINITION. The state of the machine (spec/10_state.md R20 to R41), what its ports carry (spec/20_memory.md R68,
spec/60_exceptions.md R270), why a step can stop, and the state after reset (spec/70_reset_and_hazards.md R300). -/

namespace Sys2Proof.Machine

/-- An outside effect of the block (20_memory.md R68). The answer of the bus port stands in the event. -/
inductive Event where
  /-- `W(dev, [reg, hi, lo])` and its answer (R55). -/
  | busWrite (dev : Addr7) (reg hi lo : Byte) (reply : WriteReply)
  /-- `WR(dev, [reg])` and its answer (R56). -/
  | busRead (dev : Addr7) (reg : Byte) (reply : ReadReply)
  /-- `P(L, b)` (R61). -/
  | pin (line : Line) (level : Bool)
  /-- `D(us, n)`, `D(ms, n)` (R63). -/
  | delay (unit : TimeUnit) (n : Nat)
  /-- `PWM(div, top, cc_a, cc_b)` (R62). -/
  | pwm (div top ccA ccB : Nat)
  deriving DecidableEq, Repr

/-- The result an operation that ends with `Ok` hands over (30_encoding.md R110, "result"). Real values are
rationals, as the port carries them (00_scope.md R10). -/
inductive Value where
  | none
  | word (w : Word)
  | byte (b : Byte)
  | cfg (c : AdcCfg)
  | cfgStatus (c : AdcCfg) (status : AdcStatus)
  | volts (v : Rat)
  | bool (b : Bool)
  | meas (m : MeasCfg)
  | trig (t : TrigCfg)
  | raw (v : Int)
  | range (r : RangeResult)
  | picofarads (v : Rat)
  | attofarads (v : Int)
  | frame (f : Frame)
  | div (d : Nat)
  /-- The top and its fit flag (43_pwm.md R253, R256). -/
  | top (t : Nat) (fits : Bool)
  | compare (cc : Nat)
  /-- The tuple and its fit flag (43_pwm.md R255, R256). -/
  | pwm (div top ccA ccB : Nat) (fits : Bool)
  deriving DecidableEq, Repr

/-- How an operation ends: `Ok` with a result, or a named error with what it records (60_exceptions.md R270 to
R276). -/
inductive OpOutcome where
  | ok (v : Value)
  | wrongAddress (addr : Addr7)
  | busError (e : Nat)
  | measurementNotComplete (ch : Nat)
  | indexOutOfRange (i : Nat)
  | conversionTimeout (limit : Nat)
  | searchNotConverged (limit : Nat)
  deriving DecidableEq, Repr

/-- The lettered steps of a transmit (42_shift.md R228). -/
inductive TxStep where | a | b | c | d | e | f | g | h | i | j
  deriving DecidableEq, Repr

/-- The step the running operation has reached (10_state.md R38), numbered as the operation's rule numbers it. Read
field by field, the labels of an operation rise but at the two backward transfers (40_adc.md R140, 41_cap.md R194).
CAP.READ's labels hold its operand, with which the search goes on. -/
inductive Seq where
  /-- The one step of an operation whose rule numbers none. -/
  | single
  /-- Steps 1 to 4 of ADC.WRCFG (40_adc.md R136). -/
  | adcWrcfg (n : Nat)
  /-- Steps 1 and 2 of ADC.RDCFG (40_adc.md R137). -/
  | adcRdcfg (n : Nat)
  /-- Steps 1 and 2 of ADC.RDV (40_adc.md R139). -/
  | adcRdv (n : Nat)
  /-- Steps 1 to 8 of ADC.RDSINGLE; step 6 goes back to step 4 (40_adc.md R140). -/
  | adcRdsingle (n : Nat)
  /-- Steps 1 and 2 of ADC.RDY (40_adc.md R141). -/
  | adcRdy (n : Nat)
  /-- Steps 0 to 8 of CAP.MEAS (41_cap.md R188). -/
  | capMeas (n : Nat)
  /-- Steps 0 to 8 of CAP.READ on channel `ch`; steps 5 and 6 go back to step 2 (41_cap.md R194). -/
  | capRead (ch n : Nat)
  /-- Step 3 of CAP.READ on channel `ch`, at step `n` of the CAP.MEAS it makes (41_cap.md R188, R194). -/
  | capReadMeas (ch n : Nat)
  /-- A step of SR.TX, also as SR.FLUSH expands to it, for bit `bit`; the latch pulse has bit 16 (42_shift.md R228,
  R230). -/
  | srTx (bit : Nat) (step : TxStep)
  /-- Line 1 to 4 of the pseudocode of SR.APPLYCLR or SR.CLRAPPLY, which its rule does not number (42_shift.md R231,
  R232; notes/assumptions/1.md). -/
  | srPair (line : Nat)
  /-- Line 2 or 3 of SR.APPLYCLR or SR.CLRAPPLY, at a step of the SR.TX it makes (42_shift.md R228, R231, R232). -/
  | srPairTx (line bit : Nat) (step : TxStep)
  deriving DecidableEq, Repr

/-- The state of the block (10_state.md R20), its parameters (00_scope.md R5), and what stands at its ports. -/
structure State where
  /-- The parameters the machine is built with; no operation writes them (00_scope.md R5). -/
  params : Params
  /-- `adc_present` (10_state.md R21). -/
  adcPresent : Bool
  /-- `adc_addr` (10_state.md R22). -/
  adcAddr : Addr7
  /-- `adc_cfg` (10_state.md R23). -/
  adcCfg : AdcCfg
  /-- `adc_polls`; exists while ADC.RDSINGLE runs (10_state.md R25). -/
  adcPolls : Option Nat
  /-- `cap_rate` (10_state.md R26). -/
  capRate : Rate
  /-- `cap_dac`, an 8-bit container; exists while CAP.READ runs (10_state.md R27). -/
  capDac : Option Byte
  /-- `cap_iter`; exists while CAP.READ runs (10_state.md R28). -/
  capIter : Option Nat
  /-- `frame` (10_state.md R33). -/
  frame : Frame
  /-- `SER` (10_state.md R34). -/
  ser : Bool
  /-- `SRCLK` (10_state.md R34). -/
  srclk : Bool
  /-- `RCLK` (10_state.md R34). -/
  rclk : Bool
  /-- `sr_idx`; exists while a transmit runs (10_state.md R35). -/
  srIdx : Option Nat
  /-- `seq`; exists while an operation runs (10_state.md R38). -/
  seq : Option Seq
  /-- `busy` (10_state.md R38). -/
  busy : Bool
  /-- The model's own: the commands the host will present, in order (00_scope.md R17; notes/assumptions/3.md). -/
  host : List Command
  /-- The model's own: the outcome the last ended operation handed over (60_exceptions.md R270;
  notes/assumptions/14.md). -/
  outcome : Option OpOutcome
  /-- The model's own: the event history, oldest first (20_memory.md R68). -/
  events : List Event
  /-- The model's own: the bus port's coming answers to writes, as far as they are fixed (notes/assumptions/2.md). -/
  wrTape : List WriteReply
  /-- The model's own: the bus port's coming answers to reads, as far as they are fixed (notes/assumptions/2.md). -/
  rdTape : List ReadReply
  /-- The model's own: how many free answers have been drawn (notes/assumptions/2.md). -/
  oracle : Nat
  deriving DecidableEq, Repr

/-- Why a step ends in a fault. -/
inductive Fault where
  /-- Raised by the sequencer when `busy` is 1 and `seq` and the transient registers are not those of a running
  operation. 10_state.md R38 excludes such a state and no run reaches one. Safe: the model stops. -/
  | sequencerLost
  deriving DecidableEq, Repr

/-- Why a command has no meaning (60_exceptions.md R285): no state change, no event, no outcome. All are safe: the
model stops where the spec gives nothing. -/
inductive Refusal where
  /-- An operation the model gives no meaning; raised by no arm of `exec`. Safe. -/
  | notModelled (mnemonic : String)
  /-- The command port, for a selector of no operation (30_encoding.md R111). Safe. -/
  | noOperation (op : Byte)
  /-- The command port, for operands that are not of the operation's types (30_encoding.md R109). Safe. -/
  | operandTypes (op : Byte)
  /-- The command port, for a register word with a code of no value (30_encoding.md R112). Safe. -/
  | wordWithoutValue (fmt : WordFormat) (w : Word)
  /-- The ADC bus operations while `adc_present` is 0 (40_adc.md R130). Safe. -/
  | adcNotConstructed
  /-- ADC.WITH, for a value that is not of the field's type (40_adc.md R134). Safe. -/
  | valueNotOfField
  /-- CAP.DECM and CAP.DECT, for a code that stands for no value (30_encoding.md R112). Safe. -/
  | codeWithoutValue (w : Word)
  /-- CAP.MEAS and CAP.READ, for a channel above 3 (41_cap.md R188, R194). Safe. -/
  | channelOutOfDomain (ch : Nat)
  /-- CAP.MEAS, CAP.PF and CAP.AF, for a calibration value above the ceiling (41_cap.md R188, R200, R201). Safe. -/
  | capdacOutOfDomain (capdac : Nat)
  /-- The PWM operations, for `f = 0` (43_pwm.md R252, R257 a). Safe. -/
  | frequencyZero
  /-- PWM.TOP and PWM.SET, for a quotient of 0 (43_pwm.md R253, R257 b). Safe. -/
  | frequencyAboveReference
  /-- PWM.CMP and PWM.SET, for a duty outside 0 to 100 (43_pwm.md R254, R257 c). Safe. -/
  | dutyOutOfDomain
  /-- PWM.CMP, for a top above `REF_CLK_HZ - 1` (43_pwm.md R250 b, R251). Safe. -/
  | topOutOfDomain (top : Nat)
  deriving DecidableEq, Repr

/-- What an operation's acceptance answers. -/
abbrev Result := Host.Outcome State Fault Refusal

/-- The block after reset (10_state.md R41, 70_reset_and_hazards.md R300). `adcAddr` and `adcCfg`, which R41 leaves
unspecified, hold zero and the all-zero configuration (DESIGN CHOICE, notes/assumptions/5.md, 6.md). -/
def State.reset : State where
  params := defaultParams
  adcPresent := false
  adcAddr := 0
  adcCfg := zeroCfg
  adcPolls := none
  capRate := .r100
  capDac := none
  capIter := none
  frame := Vector.replicate 16 false
  ser := false
  srclk := false
  rclk := false
  srIdx := none
  seq := none
  busy := false
  host := []
  outcome := none
  events := []
  wrTape := []
  rdTape := []
  oracle := 0

end Sys2Proof.Machine
end

