-- ==== Sys2Proof/Machine/Ops.lean ====
section
/-! DEFINITION. The shared operations: how an operation ends, with a result or with an error (spec/60_exceptions.md
R282), the bus transactions (spec/20_memory.md R55 to R57), the pins, the delays and the PWM output (R61 to R63). An
operation is written as a function of what follows it, so that an error ends it where it stands. -/

namespace Sys2Proof.Machine

/-! ## How an operation ends -/

/-- The operation is over: the transient registers cease to exist, `busy` returns to 0 and the outcome is handed to the
host (60_exceptions.md R282, 10_state.md R38). -/
def finish (s : State) (o : OpOutcome) : State :=
  { s with
    adcPolls := none, capDac := none, capIter := none, srIdx := none, seq := none, busy := false
    outcome := some o }

/-- `raise`: the operation ends with a named error; state written and events produced before stay
(60_exceptions.md R282). This is the block's taking of an exception: nothing is saved, control goes nowhere. -/
def raise (s : State) (o : OpOutcome) : State := finish s o

/-- `return v`: the operation ends with `Ok(v)` (00_scope.md R9). -/
def returnOk (s : State) (v : Value) : State := finish s (.ok v)

/-- `seq <- label` and `busy` is 1: the operation is accepted at its first step, moves to its next one, or goes back to
an earlier one (10_state.md R38). -/
def goTo (s : State) (label : Seq) : State := { s with seq := some label, busy := true }

/-! ## Events -/

/-- An outside effect happens: it is the newest event of the history (20_memory.md R64, R68). -/
def emit (s : State) (e : Event) : State := { s with events := s.events ++ [e] }

/-- `DelayUs(n)`, `DelayMs(n)`: a wait of at least `n` units (20_memory.md R63). -/
def delay (unit : TimeUnit) (n : Nat) (s : State) : State := emit s (.delay unit n)

/-- The level register of a line takes a value (20_memory.md R61). -/
def setLine (line : Line) (level : Bool) (s : State) : State :=
  match line with
  | .ser => { s with ser := level }
  | .srclk => { s with srclk := level }
  | .rclk => { s with rclk := level }

/-- `Pin(L) <- b`: the level is stored and driven; the write is an event even when the level stays
(20_memory.md R61, 42_shift.md R228 a). -/
def pin (line : Line) (level : Bool) (s : State) : State := emit (setLine line level s) (.pin line level)

/-! ## The bus port -/

/-- The bus port's answer to the next write: the tape's, and beyond the tape a free one (notes/assumptions/2.md). -/
def writeReply (s : State) (dev : Addr7) (reg : Byte) (w : Word) : WriteReply :=
  match s.wrTape with
  | r :: _ => r
  | [] => Config.deviceWriteReply s.oracle dev reg w

/-- The bus port's answer to the next read: the tape's, and beyond the tape a free one (notes/assumptions/2.md). -/
def readReply (s : State) (dev : Addr7) (reg : Byte) : ReadReply :=
  match s.rdTape with
  | r :: _ => r
  | [] => Config.deviceReadReply s.oracle dev reg

/-- The state after the answer to a write is taken. -/
def takeWriteReply (s : State) : State :=
  match s.wrTape with
  | _ :: rest => { s with wrTape := rest }
  | [] => { s with oracle := s.oracle + 1 }

/-- The state after the answer to a read is taken. -/
def takeReadReply (s : State) : State :=
  match s.rdTape with
  | _ :: rest => { s with rdTape := rest }
  | [] => { s with oracle := s.oracle + 1 }

/-- The state after a write transaction, whatever its answer: the answer is taken and the event has happened
(20_memory.md R55, 30_encoding.md R105). -/
def afterWrite (s : State) (dev : Addr7) (reg : Byte) (w : Word) : State :=
  emit (takeWriteReply s) (.busWrite dev reg (hiByte w) (loByte w) (writeReply s dev reg w))

/-- The state after a read transaction, whatever its answer (20_memory.md R56, 30_encoding.md R106). -/
def afterRead (s : State) (dev : Addr7) (reg : Byte) : State :=
  emit (takeReadReply s) (.busRead dev reg (readReply s dev reg))

/-- `MemWrite((dev, reg), 2, w)` and then `k`; an error of the bus port ends the operation with `BusError`
(20_memory.md R55, R57). -/
def memWrite (s : State) (dev : Addr7) (reg : Byte) (w : Word) (k : State → State) : State :=
  match writeReply s dev reg w with
  | .ok => k (afterWrite s dev reg w)
  | .err e => raise (afterWrite s dev reg w) (.busError e)

/-- `MemRead((dev, reg), 2)` and then `k` with the word read; an error of the bus port ends the operation with
`BusError` (20_memory.md R52, R56, R57). -/
def memRead (s : State) (dev : Addr7) (reg : Byte) (k : Word → State → State) : State :=
  match readReply s dev reg with
  | .ok b0 b1 => k (joinBytes b0 b1) (afterRead s dev reg)
  | .err e => raise (afterRead s dev reg) (.busError e)

/-! ## The register maps -/

/-- CONVERSION of the ADC (20_memory.md R58). -/
def regAdcConversion : Byte := 0x00

/-- CONFIG of the ADC (20_memory.md R58). -/
def regAdcConfig : Byte := 0x01

/-- `CAP_MSB(n)` (20_memory.md R59). -/
def regCapMsb (n : Nat) : Byte := BitVec.ofNat 8 (2 * n)

/-- `CAP_LSB(n)` (20_memory.md R59). -/
def regCapLsb (n : Nat) : Byte := BitVec.ofNat 8 (0x01 + 2 * n)

/-- `CAP_CONF(n)` (20_memory.md R59). -/
def regCapConf (n : Nat) : Byte := BitVec.ofNat 8 (0x08 + n)

/-- `CAP_TRIG` (20_memory.md R59). -/
def regCapTrig : Byte := 0x0C

end Sys2Proof.Machine
end

