-- ==== Sys2Proof/Machine/Operands.lean ====
section
/-! DEFINITION. The operand checks the operations share (spec/42_shift.md R221, spec/40_adc.md R130, R131,
spec/41_cap.md R188, R194, R200, spec/43_pwm.md R250, R257), and the fixed numbers they use. -/

namespace Sys2Proof.Machine

/-- The four strap addresses of the ADC (20_memory.md R58). -/
def isAdcAddress (addr : Addr7) : Bool :=
  addr == 0x48 || addr == 0x49 || addr == 0x4A || addr == 0x4B

/-- The index check: above 15 the operation ends with `IndexOutOfRange` before it does anything
(42_shift.md R221). -/
def checkIndex (i : Nat) (s : State) (k : Fin 16 → State → State) : State :=
  if h : i < 16 then k ⟨i, h⟩ s else raise s (.indexOutOfRange i)

/-- An ADC bus operation is refused until the unit is constructed (40_adc.md R130 a). -/
def needAdc (s : State) (run : State) : Result :=
  if s.adcPresent then .next run else .refused .adcNotConstructed

/-- A channel is 0 to 3 (41_cap.md R170 b, R188 step 0, R194 step 0). -/
def needChannel (ch : Nat) (run : Result) : Result :=
  if ch > 3 then .refused (.channelOutOfDomain ch) else run

/-- A calibration value is at most the ceiling (41_cap.md R188 step 0, R200, R201). -/
def needCapdac (p : Params) (capdac : Nat) (run : Result) : Result :=
  if capdac > p.capDacMax then .refused (.capdacOutOfDomain capdac) else run

/-- A frequency is not 0 (43_pwm.md R252). -/
def needFrequency (f : BitVec 32) (run : Result) : Result :=
  if f = 0 then .refused .frequencyZero else run

/-- A duty is 0 to 100 per cent (43_pwm.md R254). -/
def needDuty (duty : Rat) (run : Result) : Result :=
  if duty < 0 ∨ duty > 100 then .refused .dutyOutOfDomain else run

/-- A top is at most `REF_CLK_HZ - 1` (43_pwm.md R250 b, R251). -/
def needTop (p : Params) (top : Nat) (run : Result) : Result :=
  if top < p.refClkHz then run else .refused (.topOutOfDomain top)

/-- The real input of a channel operand (41_cap.md R170 b). -/
def channelInput : Nat → CapChannel
  | 0 => .cin1
  | 1 => .cin2
  | 2 => .cin3
  | _ => .cin4

/-- `MAX24` (00_scope.md R18). -/
def max24 : Int := 8388607

/-- `MIN24` (00_scope.md R18). -/
def min24 : Int := -8388608

/-- `settle(rate)`, in milliseconds (41_cap.md R187). -/
def settleMs : Rate → Nat
  | .r100 => 11
  | .r200 => 6
  | .r400 => 3

/-- `T_SETUP`, in microseconds (42_shift.md R227). -/
def tSetup : Nat := 1

/-- `T_HIGH`, in microseconds (42_shift.md R227). -/
def tHigh : Nat := 1

/-- `T_LOW`, in microseconds (42_shift.md R227). -/
def tLow : Nat := 1

/-- `T_LATCH`, in microseconds (42_shift.md R227). -/
def tLatch : Nat := 5

end Sys2Proof.Machine
end

