-- ==== Sys2Proof/Machine/Flags.lean ====
section
/-! DEFINITION. The block has no condition codes (spec/10_state.md R37). This file holds the status bits it looks at in
words it has read, the fit flag (spec/43_pwm.md R256) and the outcome codes (spec/60_exceptions.md R278). -/

namespace Sys2Proof.Machine

/-- The ADC's status bit of a CONFIG word that was read (10_state.md R37 a, 30_encoding.md R83). -/
def readsIdle (p : Params) (w : Word) : Bool := adcStatus p w == .idle

/-- The done flag of a slot in a trigger word that was read; no other bit is looked at (10_state.md R37 b,
41_cap.md R188 b). A slot above 3 has none. -/
def readsDone (p : Params) (ch : Nat) (w : Word) : Bool :=
  match p.capTrigLayout.done[ch]? with
  | some f => f.flag w
  | none => false

/-- The fit flag of a top (43_pwm.md R256). -/
def fitFlag (p : Params) (top : Nat) : Bool := decide (top < 2 ^ p.pwmTopBits)

/-- The number of an outcome at a status port (60_exceptions.md R278). -/
def outcomeCode : OpOutcome → Nat
  | .ok _ => 0
  | .wrongAddress _ => 1
  | .busError _ => 2
  | .measurementNotComplete _ => 3
  | .indexOutOfRange _ => 4
  | .conversionTimeout _ => 5
  | .searchNotConverged _ => 6

end Sys2Proof.Machine
end

