-- ==== Sys2Proof/Machine/Adc.lean ====
section
/-! DEFINITION. The ADC family, unit U1 (spec/40_adc.md). -/

namespace Sys2Proof.Machine

/-- Volts of a sample: raw times full scale over 32768 (40_adc.md R138, 10_state.md R29). -/
def adcVolts (p : Params) (raw : BitVec 16) (pga : Pga) : Rat :=
  (raw.toInt : Rat) * ((p.adcFsMv[pga.index] : Rat) / 1000) / 32768

/-- A configuration with one field set; nothing when the value is not of the field's type (40_adc.md R134). -/
def adcWithField (c : AdcCfg) (field : AdcField) (value : AdcFieldValue) : Option AdcCfg :=
  match field, value with
  | .os, .os v => some { c with os := v }
  | .mux, .mux v => some { c with mux := v }
  | .pga, .pga v => some { c with pga := v }
  | .mode, .mode v => some { c with mode := v }
  | .dr, .dr v => some { c with dr := v }
  | .compMode, .compMode v => some { c with compMode := v }
  | .compPol, .compPol v => some { c with compPol := v }
  | .compLat, .compLat v => some { c with compLat := v }
  | .compQue, .compQue v => some { c with compQue := v }
  | _, _ => none

/-- ADC.NEW (40_adc.md R131). -/
def execAdcNew (addr : Addr7) (s : State) : Result :=
  let s0 := goTo s .single
  if isAdcAddress addr then
    .next (returnOk { s0 with adcAddr := addr, adcCfg := s0.params.adcDefaultCfg, adcPresent := true } .none)
  else .next (raise s0 (.wrongAddress addr))

/-- ADC.ENC (40_adc.md R132). -/
def execAdcEnc (cfg : AdcCfg) (s : State) : Result :=
  .next (returnOk (goTo s .single) (.word (adcEncode s.params cfg)))

/-- ADC.DEC (40_adc.md R133). -/
def execAdcDec (w : Word) (s : State) : Result :=
  .next (returnOk (goTo s .single) (.cfgStatus (adcDecodeCfg s.params w) (adcStatus s.params w)))

/-- ADC.WITH (40_adc.md R134). -/
def execAdcWith (cfg : AdcCfg) (field : AdcField) (value : AdcFieldValue) (s : State) : Result :=
  match adcWithField cfg field value with
  | some c => .next (returnOk (goTo s .single) (.cfg c))
  | none => .refused .valueNotOfField

/-- The configuration ADC.WRCFG leaves held: the operand with the trigger cleared, or the one held before
(40_adc.md R136 step 1). -/
def heldAfterWrcfg (s : State) : Option AdcCfg → State
  | some c => { s with adcCfg := { c with os := .idle } }
  | none => s

/-- ADC.WRCFG, from step 1 to its end (40_adc.md R136). -/
def adcWriteHeld (cfg : Option AdcCfg) (s : State) : State :=
  let s1 := goTo (heldAfterWrcfg (goTo s (.adcWrcfg 1)) cfg) (.adcWrcfg 2)
  memWrite (goTo s1 (.adcWrcfg 3)) s1.adcAddr regAdcConfig (adcEncode s1.params s1.adcCfg) fun s2 =>
    returnOk (goTo s2 (.adcWrcfg 4)) .none

/-- ADC.WRCFG (40_adc.md R136). -/
def execAdcWrcfg (cfg : Option AdcCfg) (s : State) : Result := needAdc s (adcWriteHeld cfg s)

/-- ADC.RDCFG (40_adc.md R137). -/
def execAdcRdcfg (s : State) : Result :=
  needAdc s <| memRead (goTo s (.adcRdcfg 1)) s.adcAddr regAdcConfig fun w s1 =>
    returnOk (goTo s1 (.adcRdcfg 2)) (.cfgStatus (adcDecodeCfg s1.params w) (adcStatus s1.params w))

/-- The read of a sample and its scaling by the held gain, at the two steps of the operation that makes it
(40_adc.md R139 steps 1 and 2, R140 steps 7 and 8). -/
def adcReadSample (read scale : Seq) (s : State) : State :=
  memRead (goTo s read) s.adcAddr regAdcConversion fun c s1 =>
    returnOk (goTo s1 scale) (.volts (s1.params.carried (adcVolts s1.params c s1.adcCfg.pga)))

/-- ADC.RDV (40_adc.md R139). -/
def execAdcRdv (s : State) : Result := needAdc s (adcReadSample (.adcRdv 1) (.adcRdv 2) s)

/-- ADC.RDY (40_adc.md R141). -/
def execAdcRdy (s : State) : Result :=
  needAdc s <| memRead (goTo s (.adcRdy 1)) s.adcAddr regAdcConfig fun w s1 =>
    returnOk (goTo s1 (.adcRdy 2)) (.bool (readsIdle s1.params w))

/-- ADC.SCALE (40_adc.md R138). -/
def execAdcScale (raw : BitVec 16) (pga : Pga) (s : State) : Result :=
  .next (returnOk (goTo s .single) (.volts (s.params.carried (adcVolts s.params raw pga))))

/-- One turn of the poll, steps 4 to 8, with `polls` status reads made before: the limit, one status read, and the
sample, or the backward transfer to step 4 (40_adc.md R140). A limit of 0, which R142 does not give, ends the operation
before its first status read (DESIGN CHOICE, notes/assumptions/33.md). -/
def adcPoll (polls : Nat) (s : State) : State :=
  let s4 := goTo s (.adcRdsingle 4)
  if s4.params.adcPollLimit = some polls then raise s4 (.conversionTimeout polls)
  else
    memRead (goTo s4 (.adcRdsingle 5)) s4.adcAddr regAdcConfig fun w s5 =>
      let s6 := goTo { s5 with adcPolls := some (polls + 1) } (.adcRdsingle 6)
      if readsIdle s6.params w then adcReadSample (.adcRdsingle 7) (.adcRdsingle 8) s6
      else goTo s6 (.adcRdsingle 4)

/-- The temporary configuration that is written: the held one with the trigger set and the override
(40_adc.md R140 step 1). -/
def adcTriggerCfg (held : AdcCfg) : Option Mux → AdcCfg
  | some m => { held with os := .start, mux := m }
  | none => { held with os := .start }

/-- ADC.RDSINGLE, from step 1 to its end or its first backward transfer (40_adc.md R140). -/
def adcSingle (mux : Option Mux) (s : State) : State :=
  let s1 := goTo s (.adcRdsingle 1)
  let t := adcTriggerCfg s1.adcCfg mux
  memWrite (goTo s1 (.adcRdsingle 2)) s1.adcAddr regAdcConfig (adcEncode s1.params t) fun s2 =>
    adcPoll 0 { goTo s2 (.adcRdsingle 3) with adcPolls := some 0 }

/-- ADC.RDSINGLE (40_adc.md R140). The operation ends, or a poll answered "converting" leaves it running at step 4,
where the next machine step goes on (`resume`). -/
def execAdcRdsingle (mux : Option Mux) (s : State) : Result := needAdc s (adcSingle mux s)

end Sys2Proof.Machine
end

