-- ==== Sys2Proof/Machine/Cap.lean ====
section
/-! DEFINITION. The capacitance family, unit U2 (spec/41_cap.md). -/

namespace Sys2Proof.Machine

/-- CAP.ENCM (41_cap.md R180). -/
def execCapEncm (meas : MeasCfg) (s : State) : Result :=
  .next (returnOk (goTo s .single) (.word (capEncodeMeas s.params meas)))

/-- CAP.DECM (41_cap.md R181). -/
def execCapDecm (w : Word) (s : State) : Result :=
  match capDecodeMeas s.params w with
  | some m => .next (returnOk (goTo s .single) (.meas m))
  | none => .refused (.codeWithoutValue w)

/-- CAP.ENCT (41_cap.md R182). -/
def execCapEnct (trig : TrigCfg) (s : State) : Result :=
  .next (returnOk (goTo s .single) (.word (capEncodeTrig s.params trig)))

/-- CAP.DECT (41_cap.md R183). -/
def execCapDect (w : Word) (s : State) : Result :=
  match capDecodeTrig s.params w with
  | some t => .next (returnOk (goTo s .single) (.trig t))
  | none => .refused (.codeWithoutValue w)

/-- CAP.ASM (41_cap.md R186). -/
def execCapAsm (m l : Word) (s : State) : Result :=
  .next (returnOk (goTo s .single) (.raw (capAssemble m l).toInt))

/-- CAP.SETRATE (41_cap.md R185). -/
def execCapSetrate (rate : Rate) (s : State) : Result :=
  .next (returnOk { goTo s .single with capRate := rate } .none)

/-! ## One measurement (41_cap.md R188) -/

/-- The measurement configuration of step 1: the channel's input, the calibration DAC, the value. -/
def measConfig (ch capdac : Nat) : MeasCfg := ⟨channelInput ch, .capdac, BitVec.ofNat 5 capdac⟩

/-- The trigger configuration of step 2: the held rate and the one initiate flag. -/
def measTrigger (rate : Rate) (ch : Nat) : TrigCfg where
  reset := false
  rate := rate
  rep := false
  init := Vector.ofFn (fun n : Fin 4 => decide (n.val = ch))
  done := Vector.replicate 4 false

/-- CAP.MEAS, steps 0 to 7, and then `k` at step 8 with the assembled result; an error ends the operation where it stands. `at_ n`
is the label of step `n` in the operation that makes the measurement (41_cap.md R188). -/
def measureChannel (at_ : Nat → Seq) (ch capdac : Nat) (s : State) (k : Word24 → State → State) : State :=
  memWrite (goTo (goTo s (at_ 0)) (at_ 1)) s.params.capDevAddr (regCapConf ch)
    (capEncodeMeas s.params (measConfig ch capdac)) fun s1 =>
  memWrite (goTo s1 (at_ 2)) s1.params.capDevAddr regCapTrig
    (capEncodeTrig s1.params (measTrigger s1.capRate ch)) fun s2 =>
  let s3 := delay .ms (settleMs s2.capRate) (goTo s2 (at_ 3))
  memRead (goTo s3 (at_ 4)) s3.params.capDevAddr regCapTrig fun status s4 =>
  let s5 := goTo s4 (at_ 5)
  if readsDone s5.params ch status then
    memRead (goTo s5 (at_ 6)) s5.params.capDevAddr (regCapMsb ch) fun msb s6 =>
    memRead (goTo s6 (at_ 7)) s6.params.capDevAddr (regCapLsb ch) fun lsb s7 =>
    k (capAssemble msb lsb) (goTo s7 (at_ 8))
  else raise s5 (.measurementNotComplete ch)

/-- CAP.MEAS (41_cap.md R188). -/
def execCapMeas (ch capdac : Nat) (s : State) : Result :=
  needChannel ch <| needCapdac s.params capdac <|
    .next (measureChannel .capMeas ch capdac s fun raw s1 => returnOk s1 (.raw raw.toInt))

/-! ## The auto-ranging search (41_cap.md R194, R195) -/

/-- What one reading decides (41_cap.md R195). -/
inductive SearchStep where
  | done (r : RangeResult)
  | next (dac : Nat)
  deriving DecidableEq, Repr

/-- `search_step(raw, dac)` with the ceiling of the calibration DAC (41_cap.md R194 steps 4 to 8, R195). -/
def searchStep (ceiling : Nat) (raw : Int) (dac : Nat) : SearchStep :=
  if min24 < raw ∧ raw < max24 then .done (.inRange raw dac)
  else if raw = max24 ∧ dac < ceiling then .next (dac + 1)
  else if raw = min24 ∧ dac > 0 then .next (dac - 1)
  else if raw = max24 then .done .overflow
  else .done .underflow

/-- The step of CAP.READ at which a reading's decision is carried out (41_cap.md R194 steps 4 to 8). -/
def decisionStep (raw : Int) : SearchStep → Nat
  | .done (.inRange _ _) => 4
  | .done .overflow => 7
  | .done .underflow => 8
  | .next _ => if raw = max24 then 5 else 6

/-- Steps 4 to `n` of CAP.READ are reached in turn: those before `n` find nothing to do (41_cap.md R194). -/
def passSteps (ch n : Nat) (s : State) : State :=
  (List.range' 4 (n - 3)).foldl (fun s k => goTo s (.capRead ch k)) s

/-- One turn of the search, steps 2 to 8, at calibration value `dac` after `iter` measurements: the limit, one
measurement, and the result, or the backward transfer to step 2 (41_cap.md R194). A limit of 0, which R198 does not
give, ends the search before its first measurement (DESIGN CHOICE, notes/assumptions/33.md). -/
def capSearch (ch dac iter : Nat) (s : State) : State :=
  let s2 := goTo s (.capRead ch 2)
  if s2.params.capSearchLimit = some iter then raise s2 (.searchNotConverged iter)
  else
    measureChannel (.capReadMeas ch) ch dac (goTo s2 (.capRead ch 3)) fun raw s3 =>
      let decision := searchStep s3.params.capDacMax raw.toInt dac
      let s4 := passSteps ch (decisionStep raw.toInt decision) { s3 with capIter := some (iter + 1) }
      match decision with
      | .done r => returnOk s4 (.range r)
      | .next d => goTo { s4 with capDac := some (BitVec.ofNat 8 d) } (.capRead ch 2)

/-- CAP.READ (41_cap.md R194). The operation ends, or a saturated reading leaves it running at step 2, where the next
machine step goes on (`resume`). -/
def execCapRead (ch : Nat) (s : State) : Result :=
  needChannel ch <|
    let s1 := goTo (goTo s (.capRead ch 0)) (.capRead ch 1)
    .next (capSearch ch 0 0 { s1 with capDac := some 0, capIter := some 0 })

/-! ## Unit conversions -/

/-- Picofarads of a sample (41_cap.md R200). -/
def capPicofarads (p : Params) (raw : Word24) (capdac : Nat) : Rat :=
  (raw.toInt : Rat) / (p.capLsbDiv : Rat) + (capdac : Rat) * p.capStepPf

/-- Attofarads of a sample, the raw term truncated toward zero (41_cap.md R201; notes/assumptions/24.md). -/
def capAttofarads (p : Params) (raw : Word24) (capdac : Nat) : Int :=
  (raw.toInt * 1000000).tdiv p.capLsbDiv + capdac * 3125000

/-- CAP.PF (41_cap.md R200). -/
def execCapPf (raw : Word24) (capdac : Nat) (s : State) : Result :=
  needCapdac s.params capdac <|
    .next (returnOk (goTo s .single) (.picofarads (s.params.carried (capPicofarads s.params raw capdac))))

/-- CAP.AF (41_cap.md R201). -/
def execCapAf (raw : Word24) (capdac : Nat) (s : State) : Result :=
  needCapdac s.params capdac <|
    .next (returnOk (goTo s .single) (.attofarads (capAttofarads s.params raw capdac)))

end Sys2Proof.Machine
end

