-- ==== Sys2Proof/Machine/Pwm.lean ====
section
/-! DEFINITION. The PWM quantizer family, unit U4 (spec/43_pwm.md). -/

namespace Sys2Proof.Machine

/-- The divider of a frequency that is not 0 (43_pwm.md R252). -/
def pwmDivider (f : BitVec 32) : Nat :=
  if f.toNat ≥ 2000 then 1
  else if f.toNat ≥ 200 then 10
  else if f.toNat ≥ 20 then 100
  else if f.toNat ≥ 10 then 200
  else 255

/-- `q = REF_CLK_HZ div (f * d)` (43_pwm.md R253). -/
def pwmQuotient (p : Params) (f : BitVec 32) : Nat := p.refClkHz / (f.toNat * pwmDivider f)

/-- The top of a frequency whose quotient is not 0 (43_pwm.md R253). -/
def pwmTopOf (p : Params) (f : BitVec 32) (phaseCorrect : Bool) : Nat :=
  if phaseCorrect then (pwmQuotient p f - 1) / 2 else pwmQuotient p f - 1

/-- `round_haz` of a rational that is not negative: the nearest integer, a tie away from zero (00_scope.md R8). -/
def roundHaz (q : Rat) : Nat := (q + 1 / 2).floor.toNat

/-- The compare value of a duty inside its domain (43_pwm.md R254). -/
def pwmCompareOf (duty : Rat) (top : Nat) : Nat := roundHaz (duty * (top : Rat) / 100)

/-- A quotient is not 0 (43_pwm.md R253, R257 b). -/
def needQuotient (p : Params) (f : BitVec 32) (run : Result) : Result :=
  if pwmQuotient p f = 0 then .refused .frequencyAboveReference else run

/-- PWM.DIV (43_pwm.md R252). A frequency above `REF_CLK_HZ`, outside the domain of R251, is looked up, as R252's
pseudocode and vector V-P18 of 95_test_vectors.md have it; only the quotient of R253 is refused there (DEDUCED,
notes/assumptions/32.md). -/
def execPwmDiv (f : BitVec 32) (s : State) : Result :=
  needFrequency f <| .next (returnOk (goTo s .single) (.div (pwmDivider f)))

/-- PWM.TOP, with the fit flag (43_pwm.md R253, R256). -/
def execPwmTop (f : BitVec 32) (phaseCorrect : Bool) (s : State) : Result :=
  needFrequency f <| needQuotient s.params f <|
    let top := pwmTopOf s.params f phaseCorrect
    .next (returnOk (goTo s .single) (.top top (fitFlag s.params top)))

/-- PWM.CMP; the duty is the one the port carries (43_pwm.md R254, 00_scope.md R10). A top above `REF_CLK_HZ - 1` lies
outside the domain of R251, and R250 b has the operation refuse it; that R254's pseudocode writes no such line, and
that the duty is checked first, is in notes/assumptions/31.md (DEDUCED). -/
def execPwmCmp (duty : Rat) (top : Nat) (s : State) : Result :=
  needDuty (s.params.carried duty) <| needTop s.params top <|
    .next (returnOk (goTo s .single) (.compare (pwmCompareOf (s.params.carried duty) top)))

/-- PWM.SET, with the fit flag; the compare values are taken against the final top (43_pwm.md R255, R256); the
duties are those the port carries (00_scope.md R10). The top is always in its domain: it is below the quotient, and
the quotient is at most `REF_CLK_HZ`. -/
def execPwmSet (f : BitVec 32) (dutyA dutyB : Rat) (phaseCorrect : Bool) (s : State) : Result :=
  needFrequency f <| needQuotient s.params f <|
    needDuty (s.params.carried dutyA) <| needDuty (s.params.carried dutyB) <|
    let div := pwmDivider f
    let top := pwmTopOf s.params f phaseCorrect
    let ccA := pwmCompareOf (s.params.carried dutyA) top
    let ccB := pwmCompareOf (s.params.carried dutyB) top
    .next (returnOk (emit (goTo s .single) (.pwm div top ccA ccB)) (.pwm div top ccA ccB (fitFlag s.params top)))

end Sys2Proof.Machine
end

