-- ==== Sys2Proof/Machine/RegWord.lean ====
section
/-! DEFINITION. The register-word rows of the table (spec/30_encoding.md R80). A register word is data of the bus and
no operation of the command port; its row's meaning is the value the word stands for under its format, which the
decoder has read: no state is changed and no event happens (DESIGN CHOICE, notes/assumptions/4.md). -/

namespace Sys2Proof.Machine

/-- WORD.ADC_CONFIG as read: the configuration and the status (30_encoding.md R82, R83). -/
def execWordAdcConfig (cfg : AdcCfg) (status : AdcStatus) (s : State) : Result :=
  .next (returnOk (goTo s .single) (.cfgStatus cfg status))

/-- WORD.ADC_CONV: one two's-complement sample (30_encoding.md R92). -/
def execWordAdcConv (raw : BitVec 16) (s : State) : Result :=
  .next (returnOk (goTo s .single) (.raw raw.toInt))

/-- WORD.CAP_CONF (30_encoding.md R94). -/
def execWordCapConf (meas : MeasCfg) (s : State) : Result :=
  .next (returnOk (goTo s .single) (.meas meas))

/-- WORD.CAP_TRIG (30_encoding.md R98). -/
def execWordCapTrig (trig : TrigCfg) (s : State) : Result :=
  .next (returnOk (goTo s .single) (.trig trig))

/-- WORD.CAP_MSB: result bits 23 to 8 (30_encoding.md R103). -/
def execWordCapMsb (high : Word) (s : State) : Result :=
  .next (returnOk (goTo s .single) (.word high))

/-- WORD.CAP_LSB: result bits 7 to 0; the low byte is ignored (30_encoding.md R103). -/
def execWordCapLsb (low : Byte) (s : State) : Result :=
  .next (returnOk (goTo s .single) (.byte low))

/-- WORD.SR_FRAME: the sixteen output states (30_encoding.md R104). -/
def execWordSrFrame (frame : Frame) (s : State) : Result :=
  .next (returnOk (goTo s .single) (.frame frame))

end Sys2Proof.Machine
end

