-- ==== Sys2Proof/Machine/Sr.lean ====
section
/-! DEFINITION. The shift-register family, unit U3 (spec/42_shift.md). -/

namespace Sys2Proof.Machine

/-! ## The transmit (42_shift.md R226 to R228) -/

/-- Steps a to f for bit `i` of the word; `at_` gives the label of a bit's step in the operation that transmits
(42_shift.md R228). -/
def txBit (at_ : Nat → TxStep → Seq) (w : Word) (s : State) (i : Nat) : State :=
  let sA := pin .ser (w.getLsbD i) (goTo { s with srIdx := some i } (at_ i .a))
  let sB := delay .us tSetup (goTo sA (at_ i .b))
  let sC := pin .srclk true (goTo sB (at_ i .c))
  let sD := delay .us tHigh (goTo sC (at_ i .d))
  let sE := pin .srclk false (goTo sD (at_ i .e))
  delay .us tLow (goTo sE (at_ i .f))

/-- Steps a to f for every bit, bit 0 first (42_shift.md R226, R228). -/
def txShift (at_ : Nat → TxStep → Seq) (w : Word) (s : State) : State := (List.range 16).foldl (txBit at_ w) s

/-- Steps g to j: the data line idles low and the latch clock is pulsed (42_shift.md R228). -/
def txLatch (at_ : Nat → TxStep → Seq) (s : State) : State :=
  let sG := pin .ser false (goTo { s with srIdx := some 16 } (at_ 16 .g))
  let sH := pin .rclk true (goTo sG (at_ 16 .h))
  let sI := delay .us tLatch (goTo sH (at_ 16 .i))
  pin .rclk false (goTo sI (at_ 16 .j))

/-- SR.TX's hundred events; the frame is neither read nor written, and `sr_idx` exists until it returns
(42_shift.md R228, 10_state.md R35). -/
def transmit (at_ : Nat → TxStep → Seq) (w : Word) (s : State) : State :=
  { txLatch at_ (txShift at_ w s) with srIdx := none }

/-- `SR.TX(SR.PACK())` (42_shift.md R230). -/
def transmitFrame (at_ : Nat → TxStep → Seq) (s : State) : State := transmit at_ (packFrame s.frame) s

/-- `x[i] <- b` (00_scope.md R9). -/
def setFrame (i : Fin 16) (b : Bool) (s : State) : State := { s with frame := s.frame.set i b }

/-! ## The operations -/

/-- SR.SET (42_shift.md R222). -/
def execSrSet (idx : Nat) (s : State) : Result :=
  .next (checkIndex idx (goTo s .single) fun i s1 => returnOk (setFrame i true s1) .none)

/-- SR.CLR (42_shift.md R223). -/
def execSrClr (idx : Nat) (s : State) : Result :=
  .next (checkIndex idx (goTo s .single) fun i s1 => returnOk (setFrame i false s1) .none)

/-- SR.GET (42_shift.md R224). -/
def execSrGet (idx : Nat) (s : State) : Result :=
  .next (checkIndex idx (goTo s .single) fun i s1 => returnOk s1 (.bool s1.frame[i]))

/-- SR.PACK (42_shift.md R225). -/
def execSrPack (s : State) : Result :=
  .next (returnOk (goTo s .single) (.word (packFrame s.frame)))

/-- SR.TX (42_shift.md R228). -/
def execSrTx (w : Word) (s : State) : Result :=
  .next (returnOk (transmit .srTx w s) .none)

/-- SR.FLUSH (42_shift.md R230). -/
def execSrFlush (s : State) : Result :=
  .next (returnOk (transmitFrame .srTx s) .none)

/-- One line `x[i] <- b ; SR.TX(SR.PACK())` of a composite operation (42_shift.md R231, R232). -/
def applyLine (line : Nat) (i : Fin 16) (b : Bool) (s : State) : State :=
  transmitFrame (.srPairTx line) (setFrame i b (goTo s (.srPair line)))

/-- SR.APPLYCLR (42_shift.md R231; notes/assumptions/20.md). -/
def execSrApplyclr (idx : Nat) (s : State) : Result :=
  .next (checkIndex idx (goTo s (.srPair 1)) fun i s1 =>
    returnOk (goTo (applyLine 3 i false (applyLine 2 i true s1)) (.srPair 4)) .none)

/-- SR.CLRAPPLY (42_shift.md R232; notes/assumptions/20.md). -/
def execSrClrapply (idx : Nat) (s : State) : Result :=
  .next (checkIndex idx (goTo s (.srPair 1)) fun i s1 =>
    returnOk (goTo (applyLine 3 i true (applyLine 2 i false s1)) (.srPair 4)) .none)

end Sys2Proof.Machine
end

