-- ==== Sys2Proof/Machine/Dispatch.lean ====
section
/-! DEFINITION. The meaning of every operation, one arm for each row of spec/opcode_table.json. -/

namespace Sys2Proof.Machine

def exec (i : Instr) (s : State) : Host.Outcome State Fault Refusal :=
  match i with
  | .adcNew addr => Sys2Proof.Machine.execAdcNew addr s
  | .adcEnc cfg => Sys2Proof.Machine.execAdcEnc cfg s
  | .adcDec w => Sys2Proof.Machine.execAdcDec w s
  | .adcWith cfg field value => Sys2Proof.Machine.execAdcWith cfg field value s
  | .adcWrcfg cfg => Sys2Proof.Machine.execAdcWrcfg cfg s
  | .adcRdcfg => Sys2Proof.Machine.execAdcRdcfg s
  | .adcRdsingle mux => Sys2Proof.Machine.execAdcRdsingle mux s
  | .adcRdv => Sys2Proof.Machine.execAdcRdv s
  | .adcRdy => Sys2Proof.Machine.execAdcRdy s
  | .adcScale raw pga => Sys2Proof.Machine.execAdcScale raw pga s
  | .capEncm meas => Sys2Proof.Machine.execCapEncm meas s
  | .capDecm w => Sys2Proof.Machine.execCapDecm w s
  | .capEnct trig => Sys2Proof.Machine.execCapEnct trig s
  | .capDect w => Sys2Proof.Machine.execCapDect w s
  | .capAsm m l => Sys2Proof.Machine.execCapAsm m l s
  | .capSetrate rate => Sys2Proof.Machine.execCapSetrate rate s
  | .capMeas ch capdac => Sys2Proof.Machine.execCapMeas ch capdac s
  | .capRead ch => Sys2Proof.Machine.execCapRead ch s
  | .capPf raw capdac => Sys2Proof.Machine.execCapPf raw capdac s
  | .capAf raw capdac => Sys2Proof.Machine.execCapAf raw capdac s
  | .srSet idx => Sys2Proof.Machine.execSrSet idx s
  | .srClr idx => Sys2Proof.Machine.execSrClr idx s
  | .srGet idx => Sys2Proof.Machine.execSrGet idx s
  | .srPack => Sys2Proof.Machine.execSrPack s
  | .srTx w => Sys2Proof.Machine.execSrTx w s
  | .srFlush => Sys2Proof.Machine.execSrFlush s
  | .srApplyclr idx => Sys2Proof.Machine.execSrApplyclr idx s
  | .srClrapply idx => Sys2Proof.Machine.execSrClrapply idx s
  | .pwmDiv f => Sys2Proof.Machine.execPwmDiv f s
  | .pwmTop f phaseCorrect => Sys2Proof.Machine.execPwmTop f phaseCorrect s
  | .pwmCmp duty top => Sys2Proof.Machine.execPwmCmp duty top s
  | .pwmSet f dutyA dutyB phaseCorrect => Sys2Proof.Machine.execPwmSet f dutyA dutyB phaseCorrect s
  | .wordAdcConfig cfg status => Sys2Proof.Machine.execWordAdcConfig cfg status s
  | .wordAdcConv raw => Sys2Proof.Machine.execWordAdcConv raw s
  | .wordCapConf meas => Sys2Proof.Machine.execWordCapConf meas s
  | .wordCapTrig trig => Sys2Proof.Machine.execWordCapTrig trig s
  | .wordCapMsb high => Sys2Proof.Machine.execWordCapMsb high s
  | .wordCapLsb low => Sys2Proof.Machine.execWordCapLsb low s
  | .wordSrFrame frame => Sys2Proof.Machine.execWordSrFrame frame s

end Sys2Proof.Machine
end

