-- ==== Sys2Proof/Machine/Sequencer.lean ====
section
/-! DEFINITION. How a running operation goes on (spec/10_state.md R38): from the step `seq` names, to its end or to the
next backward transfer. -/

namespace Sys2Proof.Machine

/-- The running operation goes on at step 4 of ADC.RDSINGLE (40_adc.md R140) or step 2 of CAP.READ (41_cap.md R194).
When `seq` and the transient registers are not those of a running operation there is nothing to go on with
(notes/assumptions/22.md). -/
def resume (s : State) : Result :=
  match s.seq with
  | some (.adcRdsingle 4) =>
    match s.adcPolls with
    | some polls => .next (adcPoll polls s)
    | none => .fault .sequencerLost
  | some (.capRead ch 2) =>
    match s.capDac, s.capIter with
    | some dac, some iter =>
      if ch ≤ 3 ∧ dac.toNat ≤ s.params.capDacMax then .next (capSearch ch dac.toNat iter s)
      else .fault .sequencerLost
    | _, _ => .fault .sequencerLost
  | _ => .fault .sequencerLost

/-- What a rejected command is refused as (30_encoding.md R109, R111, R112). -/
def refusalOf : DecodeReject → Refusal
  | .noOperation op => .noOperation op
  | .operandTypes op => .operandTypes op
  | .wordWithoutValue fmt w => .wordWithoutValue fmt w

/-- The command port takes a command: it leaves the host's list, and no outcome stands at the port
(30_encoding.md R108, notes/assumptions/14.md). The operation's meaning then sets `busy` and `seq` (10_state.md R38),
unless it refuses. -/
def acceptCommand (s : State) (rest : List Command) : State := { s with host := rest, outcome := none }

end Sys2Proof.Machine
end

