-- ==== Sys2Proof/Machine/Step.lean ====
section
/-! DEFINITION. One step of the machine (spec/10_state.md R38, spec/30_encoding.md R108): a running operation goes on;
an idle block takes the host's next command and runs it; with no command it stays as it is. -/

namespace Sys2Proof.Machine

/-- One machine step (notes/assumptions/1.md, 3.md, 16.md). -/
def step (s : State) : Host.Outcome State Fault Refusal :=
  if s.busy then resume s
  else
    match s.host with
    | [] => .next s
    | c :: rest =>
      match decode s.params c with
      | .ok i => exec i (acceptCommand s rest)
      | .error r => .refused (refusalOf r)

/-- The state in which the host presents a table row's command next, to an idle block (notes/assumptions/3.md). -/
def State.withFetchWord (s : State) (nbits w : Nat) : State :=
  { s with
    host := tableCommand nbits w :: s.host
    busy := false, seq := none, adcPolls := none, capDac := none, capIter := none, srIdx := none }

end Sys2Proof.Machine
end

