-- ==== Sys2Proof/Machine/Receiver.lean ====
section
/-! DEFINITION. The reference receiver of the pin events: two cascaded 8-bit shift registers (spec/20_memory.md R69).
It is the environment; no rule of the block reads it, and it is no part of State. -/

namespace Sys2Proof.Machine

/-- The 16 stages, stage 0 fed by the data line, the 16 output pins, and the levels the lines were last driven to. -/
structure Receiver where
  stages : Vector Bool 16
  outputs : Vector Bool 16
  ser : Bool
  srclk : Bool
  rclk : Bool
  deriving DecidableEq, Repr

/-- The stages move on by one and the data line enters at stage 0 (20_memory.md R69). -/
def shiftIn (stages : Vector Bool 16) (level : Bool) : Vector Bool 16 :=
  Vector.ofFn (fun k : Fin 16 => if k.val = 0 then level else stages[k.val - 1])

/-- What an event does to the receiver: a change of SRCLK from 0 to 1 shifts, a change of RCLK from 0 to 1 copies the
stages to the outputs, and nothing else changes either (20_memory.md R69; rising edges PRESUMED, GK13). -/
def receive (r : Receiver) : Event → Receiver
  | .pin .ser b => { r with ser := b }
  | .pin .srclk b =>
    { r with srclk := b, stages := if b && !r.srclk then shiftIn r.stages r.ser else r.stages }
  | .pin .rclk b =>
    { r with rclk := b, outputs := if b && !r.rclk then r.stages else r.outputs }
  | _ => r

/-- The receiver after a list of events. -/
def receiveAll (r : Receiver) (events : List Event) : Receiver := events.foldl receive r

end Sys2Proof.Machine
end

