-- ==== Sys2Proof/Safety.lean ====
section
/-! DEFINITION. The terms in which claims are stated: when the block is idle, the invariant of every machine step, the
registers that persist between operations, and which outcomes are errors. -/

namespace Sys2Proof.Machine

/-- No operation is running, and no transient register exists (spec/10_state.md R38, R41). -/
abbrev State.Idle (s : State) : Prop :=
  s.busy = false ∧ s.seq = none ∧ s.adcPolls = none ∧ s.capDac = none ∧ s.capIter = none ∧ s.srIdx = none

/-- `busy`, `seq` and the transient registers fit together: `busy` is 1 exactly while `seq` exists, and the transient
registers that exist are those of the operation `seq` names (10_state.md R25, R27, R28, R38; 41_cap.md R196). Between
machine steps an operation stands at a target of a backward transfer; every other label is passed within one
(notes/assumptions/1.md). -/
def sequencerOk (s : State) : Bool :=
  match s.seq with
  | none => !s.busy && s.adcPolls.isNone && s.capDac.isNone && s.capIter.isNone
  | some (.adcRdsingle 4) =>
    s.busy && s.adcPresent && s.adcPolls.isSome && s.capDac.isNone && s.capIter.isNone
  | some (.capRead ch 2) =>
    s.busy && decide (ch ≤ 3) && s.adcPolls.isNone && s.capIter.isSome &&
      (match s.capDac with
        | some dac => decide (dac.toNat ≤ s.params.capDacMax)
        | none => false)
  | some _ => false

/-- What holds between machine steps: the parameters describe a machine; the held trigger is idle (10_state.md R24); a
constructed unit has one of the four addresses (R22); the three lines are low (R34); no transmit is running (R35); the
sequencer's registers fit together (R38); and a running operation has handed over no outcome (60_exceptions.md R270). -/
abbrev State.Inv (s : State) : Prop :=
  s.params.Valid ∧ s.adcCfg.os = .idle ∧ (s.adcPresent = true → isAdcAddress s.adcAddr = true) ∧
    (s.ser = false ∧ s.srclk = false ∧ s.rclk = false) ∧ s.srIdx = none ∧ sequencerOk s = true ∧
    (s.busy = true → s.outcome = none)

/-- The registers that persist from one operation to the next (10_state.md R20). -/
structure Persistent where
  adcPresent : Bool
  adcAddr : Addr7
  adcCfg : AdcCfg
  capRate : Rate
  frame : Frame
  ser : Bool
  srclk : Bool
  rclk : Bool
  deriving DecidableEq, Repr

/-- The persistent registers of a state. -/
def State.persistent (s : State) : Persistent where
  adcPresent := s.adcPresent
  adcAddr := s.adcAddr
  adcCfg := s.adcCfg
  capRate := s.capRate
  frame := s.frame
  ser := s.ser
  srclk := s.srclk
  rclk := s.rclk

/-- The outcome is a named error (60_exceptions.md R270). -/
def OpOutcome.isError : OpOutcome → Bool
  | .ok _ => false
  | _ => true

/-- The unit an operation belongs to (00_scope.md R2); a register-word row belongs to none. -/
inductive BlockUnit where | adc | cap | sr | pwm | noUnit
  deriving DecidableEq, Repr

/-- The unit of each row (30_encoding.md R110). -/
def unitOf : Instr → BlockUnit
  | .adcNew _ => .adc
  | .adcEnc _ => .adc
  | .adcDec _ => .adc
  | .adcWith _ _ _ => .adc
  | .adcWrcfg _ => .adc
  | .adcRdcfg => .adc
  | .adcRdsingle _ => .adc
  | .adcRdv => .adc
  | .adcRdy => .adc
  | .adcScale _ _ => .adc
  | .capEncm _ => .cap
  | .capDecm _ => .cap
  | .capEnct _ => .cap
  | .capDect _ => .cap
  | .capAsm _ _ => .cap
  | .capSetrate _ => .cap
  | .capMeas _ _ => .cap
  | .capRead _ => .cap
  | .capPf _ _ => .cap
  | .capAf _ _ => .cap
  | .srSet _ => .sr
  | .srClr _ => .sr
  | .srGet _ => .sr
  | .srPack => .sr
  | .srTx _ => .sr
  | .srFlush => .sr
  | .srApplyclr _ => .sr
  | .srClrapply _ => .sr
  | .pwmDiv _ => .pwm
  | .pwmTop _ _ => .pwm
  | .pwmCmp _ _ => .pwm
  | .pwmSet _ _ _ _ => .pwm
  | .wordAdcConfig _ _ => .noUnit
  | .wordAdcConv _ => .noUnit
  | .wordCapConf _ => .noUnit
  | .wordCapTrig _ => .noUnit
  | .wordCapMsb _ => .noUnit
  | .wordCapLsb _ => .noUnit
  | .wordSrFrame _ => .noUnit

/-- The unit whose operation stands at a step (10_state.md R38). -/
def Seq.unit : Seq → BlockUnit
  | .single => .noUnit
  | .adcWrcfg _ => .adc
  | .adcRdcfg _ => .adc
  | .adcRdv _ => .adc
  | .adcRdsingle _ => .adc
  | .adcRdy _ => .adc
  | .capMeas _ => .cap
  | .capRead _ _ => .cap
  | .capReadMeas _ _ => .cap
  | .srTx _ _ => .sr
  | .srPair _ => .sr
  | .srPairTx _ _ _ => .sr

/-- What `run` does from `s`, where it answers a next state, neither writes nor reads the registers of a unit other
than `u` (00_scope.md R2, 10_state.md R20). Writing: the unit's persistent registers stay, and its transient registers
do not come to exist. Reading: with all the unit's registers replaced beforehand `run` does the same to everything else.
A transient register that the end of an operation removes is left out of the comparison. -/
def KeepsToUnit (u : BlockUnit) (run : State → Result) (s : State) : Prop :=
  ∀ t : State, run s = .next t →
    (u ≠ .adc →
      (t.adcPresent = s.adcPresent ∧ t.adcAddr = s.adcAddr ∧ t.adcCfg = s.adcCfg ∧
        (s.adcPolls = none → t.adcPolls = none)) ∧
      ∀ (present : Bool) (addr : Addr7) (cfg : AdcCfg) (polls : Option Nat), ∃ v : State,
        run { s with adcPresent := present, adcAddr := addr, adcCfg := cfg, adcPolls := polls } = .next v ∧
        { v with adcPolls := t.adcPolls } = { t with adcPresent := present, adcAddr := addr, adcCfg := cfg }) ∧
    (u ≠ .cap →
      (t.capRate = s.capRate ∧ (s.capDac = none → t.capDac = none) ∧ (s.capIter = none → t.capIter = none)) ∧
      ∀ (rate : Rate) (dac : Option Byte) (iter : Option Nat), ∃ v : State,
        run { s with capRate := rate, capDac := dac, capIter := iter } = .next v ∧
        { v with capDac := t.capDac, capIter := t.capIter } = { t with capRate := rate }) ∧
    (u ≠ .sr →
      (t.frame = s.frame ∧ t.ser = s.ser ∧ t.srclk = s.srclk ∧ t.rclk = s.rclk ∧ (s.srIdx = none → t.srIdx = none)) ∧
      ∀ (frame : Frame) (ser srclk rclk : Bool) (idx : Option Nat), ∃ v : State,
        run { s with frame := frame, ser := ser, srclk := srclk, rclk := rclk, srIdx := idx } = .next v ∧
        { v with srIdx := t.srIdx } = { t with frame := frame, ser := ser, srclk := srclk, rclk := rclk })

/-- The error of a failed transaction; nothing for every other event (20_memory.md R57, R68). -/
def Event.busErrorValue : Event → Option Nat
  | .busWrite _ _ _ _ (.err e) => some e
  | .busRead _ _ (.err e) => some e
  | _ => none

/-- What `run` does from `s`, where it answers a next state, ends with a bus error exactly when a transaction failed, and
the failed transaction is the last event (20_memory.md R57, 60_exceptions.md R272, R282). Forth: a bus error that is
handed over was the answer to the last event. Back: whatever failed transaction is among the new events, no event
follows it, its error is the outcome and the block is idle. -/
def BusErrorsEndTheRun (run : State → Result) (s : State) : Prop :=
  ∀ (t : State) (e : Nat), run s = .next t →
    (s.outcome = none → t.outcome = some (.busError e) →
      t.Idle ∧ ∃ before last, t.events = s.events ++ before ++ [last] ∧ last.busErrorValue = some e) ∧
    (∀ before failed later, t.events = s.events ++ before ++ failed :: later → failed.busErrorValue = some e →
      later = [] ∧ t.outcome = some (.busError e) ∧ t.Idle)

/-! ## What a register word holds -/

/-- The word holds the nine fields of a configuration as it is written, each code at its field's place
(30_encoding.md R81 to R91). The nine fields fill the word. -/
def AdcWordHolds (p : Params) (c : AdcCfg) (w : Word) : Prop :=
  p.adcLayout.os.get w = (if c.os = .start then 1 else 0) ∧
  p.adcLayout.mux.get w = p.adcCodes.mux[c.mux.index] ∧ p.adcLayout.pga.get w = p.adcCodes.pga[c.pga.index] ∧
  p.adcLayout.mode.get w = p.adcCodes.mode[c.mode.index] ∧ p.adcLayout.dr.get w = p.adcCodes.dr[c.dr.index] ∧
  p.adcLayout.compMode.get w = p.adcCodes.compMode[c.compMode.index] ∧
  p.adcLayout.compPol.get w = p.adcCodes.compPol[c.compPol.index] ∧
  p.adcLayout.compLat.get w = p.adcCodes.compLat[c.compLat.index] ∧
  p.adcLayout.compQue.get w = p.adcCodes.compQue[c.compQue.index]

/-- A bit of the word that is in none of the fields is 0 (30_encoding.md R81). -/
def RestIsZero (fields : List BitField) (w : Word) : Prop :=
  ∀ i, (∀ f ∈ fields, ¬ (f.lo ≤ i ∧ i < f.lo + f.width)) → w.getLsbD i = false

/-- The word has the codes of a measurement configuration at their fields' places (30_encoding.md R94 to R97). -/
def MeasWordHas (p : Params) (m : MeasCfg) (w : Word) : Prop :=
  p.capMeasLayout.cha.get w = p.capCodes.channel[m.cha.index] ∧
  p.capMeasLayout.chb.get w = p.capCodes.channel[m.chb.index] ∧ p.capMeasLayout.capdac.get w = m.capdac.toNat

/-- The word has the flags and the rate code of a trigger configuration at their fields' places (30_encoding.md R98 to
R101). -/
def TrigWordHas (p : Params) (t : TrigCfg) (w : Word) : Prop :=
  p.capTrigLayout.reset.flag w = t.reset ∧ p.capTrigLayout.rate.get w = p.capCodes.rate[t.rate.index] ∧
  p.capTrigLayout.rep.flag w = t.rep ∧
  ∀ n : Fin 4, p.capTrigLayout.init[n].flag w = t.init[n] ∧ p.capTrigLayout.done[n].flag w = t.done[n]

/-! ## Runs and event lists -/

/-- `n` machine steps, stopping at the first fault or refusal. -/
def runSteps : Nat → State → Result
  | 0, s => .next s
  | n + 1, s =>
    match step s with
    | .next t => runSteps n t
    | r => r

/-- The hundred events of a transmit, written out from 42_shift.md R228. -/
def frameEvents (w : Word) : List Event :=
  (List.range 16).flatMap (fun i =>
    [.pin .ser (w.getLsbD i), .delay .us 1, .pin .srclk true, .delay .us 1, .pin .srclk false, .delay .us 1]) ++
  [.pin .ser false, .pin .rclk true, .delay .us 5, .pin .rclk false]

/-- The code of a channel selector (30_encoding.md R95). -/
def channelCode : CapChannel → Nat
  | .cin1 => 0
  | .cin2 => 1
  | .cin3 => 2
  | .cin4 => 3
  | .capdac => 4
  | .disabled => 7

/-- The code of a rate (30_encoding.md R99). -/
def rateCode : Rate → Nat
  | .r100 => 1
  | .r200 => 2
  | .r400 => 3

/-- The six events of a measurement with the answers the bus port gave, under any parameters, written out from
41_cap.md R188 steps 1 to 7: configuration, trigger, settle delay, status, MSB, LSB. -/
def measureEvents (p : Params) (rate : Rate) (ch : Fin 4) (capdac : Nat) (r1 r2 : WriteReply) (r3 r4 r5 : ReadReply) :
    List Event :=
  let conf := capEncodeMeas p
    { cha := #v[.cin1, .cin2, .cin3, .cin4][ch], chb := .capdac, capdac := BitVec.ofNat 5 capdac }
  let trig := capEncodeTrig p
    { reset := false, rate := rate, rep := false, init := (Vector.replicate 4 false).set ch true
      done := Vector.replicate 4 false }
  [.busWrite p.capDevAddr (BitVec.ofNat 8 (8 + ch)) (conf.extractLsb' 8 8) (conf.extractLsb' 0 8) r1,
   .busWrite p.capDevAddr 0x0C (trig.extractLsb' 8 8) (trig.extractLsb' 0 8) r2,
   .delay .ms (match rate with | .r100 => 11 | .r200 => 6 | .r400 => 3),
   .busRead p.capDevAddr 0x0C r3,
   .busRead p.capDevAddr (BitVec.ofNat 8 (2 * ch)) r4,
   .busRead p.capDevAddr (BitVec.ofNat 8 (2 * ch + 1)) r5]

/-- The ways in which one of the five transactions of a measurement fails with the error `e`, one entry each: the
answers to the writes and to the reads the measurement takes, and the events up to and with the failed transaction
(41_cap.md R188, 60_exceptions.md R272). The status word, where it is read, is `b0 b1`, and the first result word
`m0 m1`. -/
def failedMeasurements (p : Params) (rate : Rate) (ch : Fin 4) (capdac e : Nat) (b0 b1 m0 m1 : Byte) :
    List (List WriteReply × List ReadReply × List Event) :=
  let events := measureEvents p rate ch capdac
  [([.err e], [], (events (.err e) default default default default).take 1),
   ([.ok, .err e], [], (events .ok (.err e) default default default).take 2),
   ([.ok, .ok], [.err e], (events .ok .ok (.err e) default default).take 4),
   ([.ok, .ok], [.ok b0 b1, .err e], (events .ok .ok (.ok b0 b1) (.err e) default).take 5),
   ([.ok, .ok], [.ok b0 b1, .ok m0 m1, .err e], events .ok .ok (.ok b0 b1) (.ok m0 m1) (.err e))]

/-- The two words of a measurement under the default layouts and codes (30_encoding.md R94, R95, R98 to R100): the
configuration word and the trigger word. -/
def defaultMeasureWords (rate : Rate) (ch : Fin 4) (capdac : Nat) : Word × Word :=
  (BitVec.ofNat 16 (ch * 8192 + 4 * 1024 + capdac * 32), BitVec.ofNat 16 (rateCode rate * 1024 + 2 ^ (7 - ch.val)))

/-- The done flag of a channel's slot in a trigger word that was read: the bit at the flag's place
(30_encoding.md R98). -/
def doneBit (p : Params) (ch : Fin 4) (w : Word) : Bool := w.getLsbD p.capTrigLayout.done[ch].lo

/-- The bus port's answers to the three reads of a measurement whose done flag is set (by the status word `done`) and
whose result pair is `(m, l)`. -/
def readingReplies (done m l : Word) : List ReadReply :=
  [.ok (done.extractLsb' 8 8) (done.extractLsb' 0 8), .ok (m.extractLsb' 8 8) (m.extractLsb' 0 8),
    .ok (l.extractLsb' 8 8) (l.extractLsb' 0 8)]

/-- The registers of an operation that has just paused, laid over a state: the sequencer's label and the transient
registers. -/
def State.pausedAt (s : State) (label : Seq) (polls : Option Nat) (dac : Option Byte) (iter : Option Nat) : State :=
  { s with seq := some label, busy := true, adcPolls := polls, capDac := dac, capIter := iter }

end Sys2Proof.Machine
end

