-- ==== Sys2Proof/Certificates/Slice0/Obligations.lean ====
section
/-! DEFINITION. The statements for the provers. Each docstring names the rule of spec/ it rests on. -/

open Sys2Proof Sys2Proof.Machine

/-! ## The command port and the step -/

/-- 30_encoding.md R108, 10_state.md R38 (as the model runs it, notes/assumptions/1.md, 3.md): when the block is idle
and the host's next command decodes to an operation, the step is the meaning of that operation, on the state in which
the port has taken the command. -/
def Obligations.StepRunsTheDecodedOperation : Prop :=
  ∀ (s : State) (c : Command) (rest : List Command) (i : Instr),
    s.busy = false → s.host = c :: rest → decode s.params c = .ok i →
      step s = exec i { s with host := rest, outcome := none }

/-- 10_state.md R38: while `busy` is 1 the command port accepts nothing: the step does not look at the host's commands
and leaves them as they are. -/
def Obligations.BusyBlockTakesNoCommand : Prop :=
  ∀ (s t : State) (cmds : List Command), s.busy = true → step s = .next t →
    t.host = s.host ∧ step { s with host := cmds } = .next { t with host := cmds }

/-- 30_encoding.md R111: a selector outside the operation map of R110 is refused at the port; exactly 32 of the 256
values are in the map. -/
def Obligations.UnknownSelectorIsRefused : Prop :=
  (∀ (s : State) (op : Byte) (args : List Operand) (rest : List Command),
    s.busy = false → s.host = .op op args :: rest →
    ¬ (0x10 ≤ op.toNat ∧ op.toNat ≤ 0x19 ∨ 0x20 ≤ op.toNat ∧ op.toNat ≤ 0x29 ∨
       0x30 ≤ op.toNat ∧ op.toNat ≤ 0x37 ∨ 0x40 ≤ op.toNat ∧ op.toNat ≤ 0x43) →
      step s = .refused (.noOperation op)) ∧
  ((List.range 256).filter (fun n => isOperation (BitVec.ofNat 8 n))).length = 32

/-- Decoding some words written out from 30_encoding.md R110 (an absent `phase_correct` means false, 43_pwm.md R251)
and, for the last, R94 (its layout and codes are the spec's general knowledge, notes/assumptions/10.md). -/
def Obligations.SampleWordsDecode : Prop :=
  decode defaultParams (.op 0x10 [.addr 0x48]) = .ok (.adcNew 0x48) ∧
  decode defaultParams (.op 0x27 [.nat 1]) = .ok (.capRead 1) ∧
  decode defaultParams (.op 0x34 [.word 0x8000]) = .ok (.srTx 0x8000) ∧
  decode defaultParams (.op 0x41 [.freq 1000, .flag true]) = .ok (.pwmTop 1000 true) ∧
  decode defaultParams (.op 0x41 [.freq 1000, .absent]) = .ok (.pwmTop 1000 false) ∧
  decode defaultParams (.reg .capConf 0x50A0) = .ok (.wordCapConf ⟨.cin3, .capdac, 5⟩)

/-- 30_encoding.md R81, R110: decoding what the encoder gives is the identity on every well-formed instruction of
every family, for every valid layout and code table. -/
def Obligations.DecodeOfEncodeIsIdentity : Prop :=
  ∀ (p : Params) (i : Instr), p.Valid → i.wellFormed p = true → decode p (encode p i) = .ok i

/-! ## Reset, invariant, whole machine -/

/-- 70_reset_and_hazards.md R300: what reset leaves. -/
def Obligations.ResetLeavesTheStatedValues : Prop :=
  State.reset.adcPresent = false ∧ State.reset.capRate = .r100 ∧ (∀ i : Fin 16, State.reset.frame[i] = false) ∧
  State.reset.ser = false ∧ State.reset.srclk = false ∧ State.reset.rclk = false ∧ State.reset.Idle ∧
  State.reset.events = []

/-- The invariant of the machine holds after reset (10_state.md R24, R41; it rests on the model's choice of `adc_cfg`
at reset, notes/assumptions/6.md). -/
def Obligations.ResetMeetsTheInvariant : Prop := State.reset.Inv

/-- 10_state.md R22, R24, R34, R38, 41_cap.md R196: every machine step keeps the invariant, from every state that has
it: the held trigger stays idle, a constructed unit keeps a legal address, the lines are low, the calibration value of
a running search stays at most its ceiling, and `busy` is 1 exactly while an operation runs. -/
def Obligations.EveryStepKeepsTheInvariant : Prop :=
  ∀ s t : State, s.Inv → step s = .next t → t.Inv

/-- 10_state.md R38, 60_exceptions.md R270: from a state that meets the invariant no step ends in a fault. -/
def Obligations.InvariantStatesNeverFault : Prop :=
  ∀ (s : State) (r : Fault), s.Inv → step s ≠ .fault r

/-- 00_scope.md R2: no unit reads or writes another unit's state: not by an operation that is accepted, and not by a
turn of a running one. A unit's state is its registers of 10_state.md R20, the transient ones among them. -/
def Obligations.UnitsShareNoState : Prop :=
  (∀ (i : Instr) (s : State), KeepsToUnit (unitOf i) (exec i) s) ∧
  (∀ (label : Seq) (s : State), s.busy = true → s.seq = some label → KeepsToUnit label.unit step s)

/-- 20_memory.md R64, R68: a step adds events to the history and takes none away; and it writes no parameter, which
is where the model keeps the arguments of 00_scope.md R5 (notes/assumptions/7.md). -/
def Obligations.HistoryGrowsAndParametersStay : Prop :=
  ∀ s t : State, step s = .next t → s.events <+: t.events ∧ t.params = s.params

/-- 60_exceptions.md R283: an operation that ends in an error leaves every persistent register as it was, but for
ADC.WRCFG with an operand, which leaves every one but `adc_cfg`; and a turn of a running operation (the model's step
from a busy state, notes/assumptions/1.md) leaves every persistent register as it was, however it ends. -/
def Obligations.ErrorsLeavePersistentState : Prop :=
  (∀ (i : Instr) (s t : State) (o : OpOutcome), s.outcome = none → exec i s = .next t → t.outcome = some o →
    o.isError = true →
    ((∀ c, i ≠ .adcWrcfg (some c)) → t.persistent = s.persistent) ∧
    { t.persistent with adcCfg := s.adcCfg } = s.persistent) ∧
  (∀ s t : State, s.busy = true → step s = .next t → t.persistent = s.persistent)

/-- 60_exceptions.md R279: which operation can end with which error when it is accepted, and that only ADC.RDSINGLE
and CAP.READ can be left running; and with which errors a later turn of those two can end, by the step at which they
stand (notes/assumptions/1.md). Under a limit of 0 it says what the model chose (notes/assumptions/33.md). -/
def Obligations.OutcomesFollowTheMatrix : Prop :=
  (∀ (i : Instr) (s t : State), s.outcome = none → s.busy = false → exec i s = .next t →
    (∀ a, t.outcome = some (.wrongAddress a) → i = .adcNew a) ∧
    (∀ e, t.outcome = some (.busError e) →
      (∃ c, i = .adcWrcfg c) ∨ i = .adcRdcfg ∨ (∃ m, i = .adcRdsingle m) ∨ i = .adcRdv ∨ i = .adcRdy ∨
      (∃ ch d, i = .capMeas ch d) ∨ ∃ ch, i = .capRead ch) ∧
    (∀ ch, t.outcome = some (.measurementNotComplete ch) → (∃ d, i = .capMeas ch d) ∨ i = .capRead ch) ∧
    (∀ n, t.outcome = some (.indexOutOfRange n) →
      15 < n ∧ (i = .srSet n ∨ i = .srClr n ∨ i = .srGet n ∨ i = .srApplyclr n ∨ i = .srClrapply n)) ∧
    (∀ n, t.outcome = some (.conversionTimeout n) → s.params.adcPollLimit = some n ∧ ∃ m, i = .adcRdsingle m) ∧
    (∀ n, t.outcome = some (.searchNotConverged n) → s.params.capSearchLimit = some n ∧ ∃ ch, i = .capRead ch) ∧
    (t.busy = true → (∃ m, i = .adcRdsingle m) ∨ ∃ ch, i = .capRead ch)) ∧
  (∀ s t : State, s.outcome = none → s.busy = true → step s = .next t →
    (s.seq = some (.adcRdsingle 4) ∧ (t.busy = true → t.seq = some (.adcRdsingle 4) ∧ t.outcome = none) ∧
      ∀ o, t.outcome = some o → o.isError = true →
        (∃ e, o = .busError e) ∨ ∃ n, o = .conversionTimeout n ∧ s.params.adcPollLimit = some n) ∨
    (∃ ch, s.seq = some (.capRead ch 2) ∧ (t.busy = true → t.seq = some (.capRead ch 2) ∧ t.outcome = none) ∧
      ∀ o, t.outcome = some o → o.isError = true →
        (∃ e, o = .busError e) ∨ o = .measurementNotComplete ch ∨
        ∃ n, o = .searchNotConverged n ∧ s.params.capSearchLimit = some n))

/-- 20_memory.md R57, 60_exceptions.md R272, R282, R284: an operation ends with a bus error exactly when one of its
transactions failed; the error is handed over as it came, and the failed transaction is the operation's last event. Of
an operation that is accepted, whichever it is, and of a turn of a running one (notes/assumptions/1.md). -/
def Obligations.BusErrorEndsTheOperation : Prop :=
  (∀ (i : Instr) (s : State), BusErrorsEndTheRun (exec i) s) ∧
  (∀ s : State, s.busy = true → BusErrorsEndTheRun step s)

/-! ## The codecs -/

/-- 30_encoding.md R93, R102, 40_adc.md R135, 41_cap.md R184: the round-trip laws, for every valid layout and code
table: every configuration decodes to itself with the trigger idle, the status is idle exactly when the trigger was
set, and both capacitance words decode to what was encoded (so neither decoder refuses a word of its encoder). -/
def Obligations.RegisterCodecsRoundTrip : Prop :=
  ∀ p : Params, p.Valid →
    (∀ c : AdcCfg, adcDecodeCfg p (adcEncode p c) = { c with os := .idle }) ∧
    (∀ c : AdcCfg, adcStatus p (adcEncode p c) = .idle ↔ c.os = .start) ∧
    (∀ m : MeasCfg, capDecodeMeas p (capEncodeMeas p m) = some m) ∧
    (∀ t : TrigCfg, capDecodeTrig p (capEncodeTrig p t) = some t)

/-- 30_encoding.md R93, the converse: with the default layout (general knowledge, notes/assumptions/8.md) a word
survives decoding and encoding, but for bit 15, exactly when its gain code is not 6 or 7. -/
def Obligations.AdcWordsSurviveUnlessGainUnused : Prop :=
  ∀ w : Word, adcEncode defaultParams (adcDecodeCfg defaultParams w) = w &&& 0x7FFF ↔
    ¬ (w.extractLsb' 9 3 = 6 ∨ w.extractLsb' 9 3 = 7)

/-- 30_encoding.md R81: for every valid layout, an encoder puts each field's code at the field's position, and every
bit that belongs to no field is 0. -/
def Obligations.EncodersPlaceEveryFieldInAnyLayout : Prop :=
  ∀ p : Params, p.Valid →
    (∀ c : AdcCfg, AdcWordHolds p c (adcEncode p c)) ∧
    (∀ m : MeasCfg, MeasWordHas p m (capEncodeMeas p m) ∧ RestIsZero p.capMeasLayout.fields (capEncodeMeas p m)) ∧
    (∀ t : TrigCfg, TrigWordHas p t (capEncodeTrig p t) ∧ RestIsZero p.capTrigLayout.fields (capEncodeTrig p t))

/-! ## Unit U1 -/

/-- 40_adc.md R131: construction. -/
def Obligations.AdcNewConstructsOrFails : Prop :=
  ∀ (addr : Addr7) (s : State), s.Idle →
    exec (.adcNew addr) s = .next
      (if addr = 0x48 ∨ addr = 0x49 ∨ addr = 0x4A ∨ addr = 0x4B then
        { s with adcPresent := true, adcAddr := addr, adcCfg := s.params.adcDefaultCfg, outcome := some (.ok .none) }
      else { s with outcome := some (.wrongAddress addr) })

/-- 40_adc.md R132, 30_encoding.md R81: the word has each field's code at its place, in every valid layout; and, under
the default layout and codes (general knowledge, notes/assumptions/8.md), it is the nine codes side by side. -/
def Obligations.AdcEncGivesTheConfigWord : Prop :=
  ∀ (c : AdcCfg) (s : State), s.Idle →
    (s.params.Valid → ∃ w : Word,
      exec (.adcEnc c) s = .next { s with outcome := some (.ok (.word w)) } ∧ AdcWordHolds s.params c w) ∧
    (s.params = defaultParams → exec (.adcEnc c) s = .next { s with outcome := some (.ok (.word
      (BitVec.ofNat 1 (if c.os = .start then 1 else 0) ++ BitVec.ofNat 3 c.mux.index ++ BitVec.ofNat 3 c.pga.index ++
        BitVec.ofNat 1 c.mode.index ++ BitVec.ofNat 3 c.dr.index ++ BitVec.ofNat 1 c.compMode.index ++
        BitVec.ofNat 1 c.compPol.index ++ BitVec.ofNat 1 c.compLat.index ++
        BitVec.ofNat 2 c.compQue.index : Word))) })

/-- 40_adc.md R133, 30_encoding.md R81, R83, R85, in every valid layout: each field is the value whose code stands at
its place, but that the trigger is idle and that a gain code of no gain is `G5` (DEDUCED, notes/assumptions/17.md); the
status is idle when the trigger's bit is 1. The last clause says it under the default layout and codes (general
knowledge, notes/assumptions/8.md). -/
def Obligations.AdcDecReadsTheConfigWord : Prop :=
  ∀ (w : Word) (s : State), s.Idle →
    (s.params.Valid → ∃ c : AdcCfg,
      let p := s.params
      exec (.adcDec w) s = .next { s with
        outcome := some (.ok (.cfgStatus c (if p.adcLayout.os.get w = 1 then .idle else .converting))) } ∧
      c.os = .idle ∧ p.adcCodes.mux[c.mux.index] = p.adcLayout.mux.get w ∧
      ((∃ g : Pga, p.adcCodes.pga[g.index] = p.adcLayout.pga.get w) →
        p.adcCodes.pga[c.pga.index] = p.adcLayout.pga.get w) ∧
      ((∀ g : Pga, p.adcCodes.pga[g.index] ≠ p.adcLayout.pga.get w) → c.pga = .g5) ∧
      p.adcCodes.mode[c.mode.index] = p.adcLayout.mode.get w ∧ p.adcCodes.dr[c.dr.index] = p.adcLayout.dr.get w ∧
      p.adcCodes.compMode[c.compMode.index] = p.adcLayout.compMode.get w ∧
      p.adcCodes.compPol[c.compPol.index] = p.adcLayout.compPol.get w ∧
      p.adcCodes.compLat[c.compLat.index] = p.adcLayout.compLat.get w ∧
      p.adcCodes.compQue[c.compQue.index] = p.adcLayout.compQue.get w) ∧
    (s.params = defaultParams → ∃ c : AdcCfg, exec (.adcDec w) s = .next { s with
        outcome := some (.ok (.cfgStatus c (if w.getLsbD 15 then .idle else .converting))) } ∧
      c.os = .idle ∧ c.mux.index.val = (w.extractLsb' 12 3).toNat ∧
      c.pga.index.val = min 5 (w.extractLsb' 9 3).toNat ∧ c.mode.index.val = (w.extractLsb' 8 1).toNat ∧
      c.dr.index.val = (w.extractLsb' 5 3).toNat ∧ c.compMode.index.val = (w.extractLsb' 4 1).toNat ∧
      c.compPol.index.val = (w.extractLsb' 3 1).toNat ∧ c.compLat.index.val = (w.extractLsb' 2 1).toNat ∧
      c.compQue.index.val = (w.extractLsb' 0 2).toNat)

/-- 40_adc.md R134: the named field takes the value, the other eight and the block stay; a value of another field's
type is refused. -/
def Obligations.AdcWithSetsOneField : Prop :=
  ∀ (c : AdcCfg) (s : State), s.Idle →
    (∀ v, exec (.adcWith c .os (.os v)) s = .next { s with outcome := some (.ok (.cfg { c with os := v })) }) ∧
    (∀ v, exec (.adcWith c .mux (.mux v)) s = .next { s with outcome := some (.ok (.cfg { c with mux := v })) }) ∧
    (∀ v, exec (.adcWith c .pga (.pga v)) s = .next { s with outcome := some (.ok (.cfg { c with pga := v })) }) ∧
    (∀ v, exec (.adcWith c .mode (.mode v)) s = .next { s with outcome := some (.ok (.cfg { c with mode := v })) }) ∧
    (∀ v, exec (.adcWith c .dr (.dr v)) s = .next { s with outcome := some (.ok (.cfg { c with dr := v })) }) ∧
    (∀ v, exec (.adcWith c .compMode (.compMode v)) s =
      .next { s with outcome := some (.ok (.cfg { c with compMode := v })) }) ∧
    (∀ v, exec (.adcWith c .compPol (.compPol v)) s =
      .next { s with outcome := some (.ok (.cfg { c with compPol := v })) }) ∧
    (∀ v, exec (.adcWith c .compLat (.compLat v)) s =
      .next { s with outcome := some (.ok (.cfg { c with compLat := v })) }) ∧
    (∀ v, exec (.adcWith c .compQue (.compQue v)) s =
      .next { s with outcome := some (.ok (.cfg { c with compQue := v })) }) ∧
    (∀ (field : AdcField) (value : AdcFieldValue), value.field ≠ field →
      exec (.adcWith c field value) s = .refused .valueNotOfField)

/-- 40_adc.md R130 a, 70_reset_and_hazards.md R306: the five bus operations are refused before construction. -/
def Obligations.AdcBusOperationsNeedConstruction : Prop :=
  ∀ s : State, s.adcPresent = false →
    (∀ c, exec (.adcWrcfg c) s = .refused .adcNotConstructed) ∧ exec .adcRdcfg s = .refused .adcNotConstructed ∧
    (∀ m, exec (.adcRdsingle m) s = .refused .adcNotConstructed) ∧ exec .adcRdv s = .refused .adcNotConstructed ∧
    exec .adcRdy s = .refused .adcNotConstructed

/-- 40_adc.md R136: the held configuration is replaced (trigger cleared) before the transmission and stays replaced
when it fails; one write of CONFIG, high byte first; and, the held trigger being idle, the word's trigger bit is 0 in
every valid layout. -/
def Obligations.AdcWrcfgReplacesAndSends : Prop :=
  ∀ (cfg : Option AdcCfg) (s : State), s.Idle → s.adcPresent = true →
    let held : AdcCfg := match cfg with | some c => { c with os := .idle } | none => s.adcCfg
    let w := adcEncode s.params held
    let reply := writeReply s s.adcAddr 0x01 w
    exec (.adcWrcfg cfg) s = .next { takeWriteReply s with
      adcCfg := held
      events := s.events ++ [.busWrite s.adcAddr 0x01 (w.extractLsb' 8 8) (w.extractLsb' 0 8) reply]
      outcome := some (match reply with | .ok => .ok .none | .err e => .busError e) } ∧
    (s.params.Valid → s.adcCfg.os = .idle → s.params.adcLayout.os.get w = 0)

/-- 40_adc.md R137, R141: one read of CONFIG, decoded and returned, not stored; ready means the status bit reports
idle. -/
def Obligations.AdcConfigReadsReportTheDevice : Prop :=
  ∀ s : State, s.Idle → s.adcPresent = true →
    let reply := readReply s s.adcAddr 0x01
    exec .adcRdcfg s = .next { takeReadReply s with
      events := s.events ++ [.busRead s.adcAddr 0x01 reply]
      outcome := some (match reply with
        | .ok b0 b1 => .ok (.cfgStatus (adcDecodeCfg s.params (b0 ++ b1)) (adcStatus s.params (b0 ++ b1)))
        | .err e => .busError e) } ∧
    exec .adcRdy s = .next { takeReadReply s with
      events := s.events ++ [.busRead s.adcAddr 0x01 reply]
      outcome := some (match reply with
        | .ok b0 b1 => .ok (.bool (decide (s.params.adcLayout.os.get (b0 ++ b1) = 1)))
        | .err e => .busError e) }

/-- 40_adc.md R139: one read of CONVERSION, scaled by the held gain; the volts are handed over as the port carries a
real (00_scope.md R10; DESIGN CHOICE, notes/assumptions/12.md; the scaled value itself for the exact representation). -/
def Obligations.AdcRdvScalesTheSample : Prop :=
  ∀ s : State, s.Idle → s.adcPresent = true →
    let reply := readReply s s.adcAddr 0x00
    exec .adcRdv s = .next { takeReadReply s with
      events := s.events ++ [.busRead s.adcAddr 0x00 reply]
      outcome := some (match reply with
        | .ok b0 b1 => .ok (.volts (s.params.carried
            (((b0 ++ b1 : Word).toInt : Rat) * ((s.params.adcFsMv[s.adcCfg.pga.index] : Rat) / 1000) / 32768)))
        | .err e => .busError e) }

/-- 40_adc.md R138: before the port's representation, volts are raw times full scale over 32768; -32768 gives minus the
full scale, and no sample gives the full scale. What is handed over is that value as the port carries it (00_scope.md
R10; DESIGN CHOICE, notes/assumptions/12.md; the value itself for the exact representation). -/
def Obligations.AdcScaleGivesVolts : Prop :=
  ∀ (raw : BitVec 16) (pga : Pga) (s : State), s.Idle →
    let fs : Rat := (s.params.adcFsMv[pga.index] : Rat) / 1000
    ∃ v : Rat, exec (.adcScale raw pga) s = .next { s with outcome := some (.ok (.volts (s.params.carried v))) } ∧
      v * 32768 = (raw.toInt : Rat) * fs ∧ (raw.toInt = -32768 → v = -fs) ∧ (0 < fs → v < fs)

/-- 40_adc.md R130 c, R140, 60_exceptions.md R272, the run whose first status read reports idle or in which a
transaction fails: the trigger word is written, the status is read once, and the sample is read and scaled. A failed
write, status read or sample read (steps 2, 5 and 7) ends the operation there with the bus error, after one, two or
three events. At a later turn, after `n` status reads (notes/assumptions/1.md), the status read and the sample read end
in the same way. In every case the held configuration stays. The volts are handed over as the port carries a real
(00_scope.md R10; DESIGN CHOICE, notes/assumptions/12.md; the scaled value itself for the exact representation). -/
def Obligations.AdcRdsingleEndsAtTheFirstIdlePollOrAnError : Prop :=
  ∀ (mux : Option Mux) (s : State) (e : Nat) (b0 b1 c0 c1 : Byte) (ws : List WriteReply) (rs : List ReadReply),
    s.adcPresent = true →
    let t : AdcCfg := match mux with
      | some m => { s.adcCfg with os := .start, mux := m }
      | none => { s.adcCfg with os := .start }
    let w := adcEncode s.params t
    let write : WriteReply → Event := .busWrite s.adcAddr 0x01 (w.extractLsb' 8 8) (w.extractLsb' 0 8)
    let status : ReadReply → Event := .busRead s.adcAddr 0x01
    let sample : ReadReply → Event := .busRead s.adcAddr 0x00
    let volts : Rat := s.params.carried
      (((c0 ++ c1 : Word).toInt : Rat) * ((s.params.adcFsMv[s.adcCfg.pga.index] : Rat) / 1000) / 32768)
    let ended : List Event → OpOutcome → State := fun es o =>
      { s with wrTape := ws, rdTape := rs, events := s.events ++ es, outcome := some o }
    (s.Idle →
      (s.wrTape = .err e :: ws → s.rdTape = rs →
        exec (.adcRdsingle mux) s = .next (ended [write (.err e)] (.busError e))) ∧
      (s.params.adcPollLimit ≠ some 0 → s.wrTape = .ok :: ws →
        (s.rdTape = .err e :: rs →
          exec (.adcRdsingle mux) s = .next (ended [write .ok, status (.err e)] (.busError e))) ∧
        (s.params.adcLayout.os.get (b0 ++ b1) = 1 →
          (s.rdTape = .ok b0 b1 :: .err e :: rs →
            exec (.adcRdsingle mux) s =
              .next (ended [write .ok, status (.ok b0 b1), sample (.err e)] (.busError e))) ∧
          (s.rdTape = .ok b0 b1 :: .ok c0 c1 :: rs →
            exec (.adcRdsingle mux) s =
              .next (ended [write .ok, status (.ok b0 b1), sample (.ok c0 c1)] (.ok (.volts volts))))))) ∧
    (∀ n : Nat, s.busy = true → s.seq = some (.adcRdsingle 4) → s.adcPolls = some n → s.capDac = none →
      s.capIter = none → s.srIdx = none → s.params.adcPollLimit ≠ some n → s.wrTape = ws →
      let endedTurn : List Event → OpOutcome → State := fun es o =>
        { ended es o with busy := false, seq := none, adcPolls := none }
      (s.rdTape = .err e :: rs → step s = .next (endedTurn [status (.err e)] (.busError e))) ∧
      (s.params.adcLayout.os.get (b0 ++ b1) = 1 →
        (s.rdTape = .ok b0 b1 :: .err e :: rs →
          step s = .next (endedTurn [status (.ok b0 b1), sample (.err e)] (.busError e))) ∧
        (s.rdTape = .ok b0 b1 :: .ok c0 c1 :: rs →
          step s = .next (endedTurn [status (.ok b0 b1), sample (.ok c0 c1)] (.ok (.volts volts))))))

/-- 40_adc.md R140, R142, 60_exceptions.md R281: whatever finite number of status reads report "converting", as long as
it is below the limit where there is one, the operation reads the status once more for each, and ends with the scaled
sample after the one that reports idle. Under a limit of `L` that one may be the `L`-th. That each such answer is one more
machine step is the model's choice (notes/assumptions/1.md), and the volts are handed over as the port carries a real
(00_scope.md R10; DESIGN CHOICE, notes/assumptions/12.md). -/
def Obligations.AdcRdsinglePollsUntilIdle : Prop :=
  ∀ (mux : Option Mux) (s : State) (polls : List (Byte × Byte)) (b0 b1 c0 c1 : Byte) (ws : List WriteReply)
    (rs : List ReadReply),
    s.Idle → s.adcPresent = true →
    (s.params.adcPollLimit = none ∨ ∃ limit, s.params.adcPollLimit = some limit ∧ polls.length < limit) →
    (∀ q ∈ polls, s.params.adcLayout.os.get (q.1 ++ q.2) ≠ 1) → s.params.adcLayout.os.get (b0 ++ b1) = 1 →
    s.wrTape = .ok :: ws →
    s.rdTape = polls.map (fun q => .ok q.1 q.2) ++ .ok b0 b1 :: .ok c0 c1 :: rs →
    let w := adcEncode s.params (adcTriggerCfg s.adcCfg mux)
    ∃ s0, exec (.adcRdsingle mux) s = .next s0 ∧
      runSteps polls.length s0 = .next { s with
        wrTape := ws
        rdTape := rs
        events := s.events ++ Event.busWrite s.adcAddr 0x01 (w.extractLsb' 8 8) (w.extractLsb' 0 8) .ok ::
          (polls.map (fun q => Event.busRead s.adcAddr 0x01 (.ok q.1 q.2)) ++
            [.busRead s.adcAddr 0x01 (.ok b0 b1), .busRead s.adcAddr 0x00 (.ok c0 c1)])
        outcome := some (.ok (.volts (s.params.carried (adcVolts s.params (c0 ++ c1) s.adcCfg.pga)))) }

/-- 40_adc.md R140 step 4, 60_exceptions.md R275: under a limit of `L` status reads, `L` reads that report
"converting" end the operation with `ConversionTimeout(L)`, and no sample is read. The number of machine steps is the
model's choice (notes/assumptions/1.md). -/
def Obligations.AdcRdsingleTimesOut : Prop :=
  ∀ (mux : Option Mux) (s : State) (polls : List (Byte × Byte)) (ws : List WriteReply) (rs : List ReadReply),
    s.Idle → s.adcPresent = true → polls ≠ [] → s.params.adcPollLimit = some polls.length →
    (∀ q ∈ polls, s.params.adcLayout.os.get (q.1 ++ q.2) ≠ 1) → s.wrTape = .ok :: ws →
    s.rdTape = polls.map (fun q => .ok q.1 q.2) ++ rs →
    let w := adcEncode s.params (adcTriggerCfg s.adcCfg mux)
    ∃ s0, exec (.adcRdsingle mux) s = .next s0 ∧
      runSteps polls.length s0 = .next { s with
        wrTape := ws
        rdTape := rs
        events := s.events ++ Event.busWrite s.adcAddr 0x01 (w.extractLsb' 8 8) (w.extractLsb' 0 8) .ok ::
          polls.map (fun q => Event.busRead s.adcAddr 0x01 (.ok q.1 q.2))
        outcome := some (.conversionTimeout polls.length) }

/-- 40_adc.md R142: without a limit, a device that goes on reporting "converting" keeps the operation running: after
any number of status reads `busy` is still 1 and the operation stands at step 4. The number of machine steps is the
model's choice (notes/assumptions/1.md). -/
def Obligations.AdcRdsingleHangsWhileConverting : Prop :=
  ∀ (mux : Option Mux) (s : State) (q : Byte × Byte) (polls : List (Byte × Byte)) (ws : List WriteReply)
    (rs : List ReadReply),
    s.Idle → s.adcPresent = true → s.params.adcPollLimit = none →
    (∀ r ∈ q :: polls, s.params.adcLayout.os.get (r.1 ++ r.2) ≠ 1) → s.wrTape = .ok :: ws →
    s.rdTape = (q :: polls).map (fun r => .ok r.1 r.2) ++ rs →
    let w := adcEncode s.params (adcTriggerCfg s.adcCfg mux)
    ∃ s0, exec (.adcRdsingle mux) s = .next s0 ∧
      runSteps polls.length s0 = .next ({ s with
        wrTape := ws
        rdTape := rs
        events := s.events ++ Event.busWrite s.adcAddr 0x01 (w.extractLsb' 8 8) (w.extractLsb' 0 8) .ok ::
          (q :: polls).map (fun r : Byte × Byte => Event.busRead s.adcAddr 0x01 (.ok r.1 r.2)) }.pausedAt
        (.adcRdsingle 4) (some (polls.length + 1)) none none)

/-! ## Unit U2 -/

/-- 41_cap.md R180, 30_encoding.md R81: the word has the two selector codes and the calibration value at their places
and 0 elsewhere, in every valid layout; and the word itself under the default layout and codes (general knowledge,
notes/assumptions/10.md). -/
def Obligations.CapEncmGivesTheMeasurementWord : Prop :=
  ∀ (m : MeasCfg) (s : State), s.Idle →
    (s.params.Valid → ∃ w : Word, exec (.capEncm m) s = .next { s with outcome := some (.ok (.word w)) } ∧
      MeasWordHas s.params m w ∧ RestIsZero s.params.capMeasLayout.fields w) ∧
    (s.params = defaultParams → exec (.capEncm m) s = .next { s with outcome := some (.ok (.word
      (BitVec.ofNat 3 (channelCode m.cha) ++ BitVec.ofNat 3 (channelCode m.chb) ++ m.capdac ++ 0#5 : Word))) })

/-- 41_cap.md R181, 30_encoding.md R81, R112, in every valid layout: a word one of whose selector codes stands for no
channel is refused, and every other word decodes to the values whose codes stand at the fields' places. The last two
clauses say it under the default layout and codes (general knowledge, notes/assumptions/10.md): selector codes 5 and 6
are refused. -/
def Obligations.CapDecmReadsTheMeasurementWord : Prop :=
  ∀ (w : Word) (s : State), s.Idle →
    let p := s.params
    let coded : BitField → Prop := fun f => ∃ c : CapChannel, p.capCodes.channel[c.index] = f.get w
    (p.Valid →
      (¬ (coded p.capMeasLayout.cha ∧ coded p.capMeasLayout.chb) →
        exec (.capDecm w) s = .refused (.codeWithoutValue w)) ∧
      (coded p.capMeasLayout.cha ∧ coded p.capMeasLayout.chb → ∃ m : MeasCfg,
        exec (.capDecm w) s = .next { s with outcome := some (.ok (.meas m)) } ∧ MeasWordHas p m w)) ∧
    (p = defaultParams →
      let a := (w.extractLsb' 13 3).toNat
      let b := (w.extractLsb' 10 3).toNat
      ((a = 5 ∨ a = 6 ∨ b = 5 ∨ b = 6) → exec (.capDecm w) s = .refused (.codeWithoutValue w)) ∧
      (¬ (a = 5 ∨ a = 6 ∨ b = 5 ∨ b = 6) → ∃ m : MeasCfg,
        exec (.capDecm w) s = .next { s with outcome := some (.ok (.meas m)) } ∧
        channelCode m.cha = a ∧ channelCode m.chb = b ∧ m.capdac = w.extractLsb' 5 5))

/-- 41_cap.md R182, 30_encoding.md R81: the word has every flag and the rate code at their places and 0 elsewhere, in
every valid layout; and the word itself under the default layout and codes (general knowledge,
notes/assumptions/10.md). -/
def Obligations.CapEnctGivesTheTriggerWord : Prop :=
  ∀ (t : TrigCfg) (s : State), s.Idle →
    (s.params.Valid → ∃ w : Word, exec (.capEnct t) s = .next { s with outcome := some (.ok (.word w)) } ∧
      TrigWordHas s.params t w ∧ RestIsZero s.params.capTrigLayout.fields w) ∧
    (s.params = defaultParams → exec (.capEnct t) s = .next { s with outcome := some (.ok (.word
      (BitVec.ofBool t.reset ++ 0#3 ++ BitVec.ofNat 2 (rateCode t.rate) ++ 0#1 ++ BitVec.ofBool t.rep ++
        BitVec.ofBool t.init[0] ++ BitVec.ofBool t.init[1] ++ BitVec.ofBool t.init[2] ++ BitVec.ofBool t.init[3] ++
        BitVec.ofBool t.done[0] ++ BitVec.ofBool t.done[1] ++ BitVec.ofBool t.done[2] ++
        BitVec.ofBool t.done[3] : Word))) })

/-- 41_cap.md R183, 30_encoding.md R81, R112, in every valid layout: a word whose rate code stands for no rate is
refused, and every other word decodes to the flags and the rate at the fields' places. The last two clauses say it under
the default layout and codes (general knowledge, notes/assumptions/10.md): rate code 0 is refused. -/
def Obligations.CapDectReadsTheTriggerWord : Prop :=
  ∀ (w : Word) (s : State), s.Idle →
    let p := s.params
    let coded : Prop := ∃ r : Rate, p.capCodes.rate[r.index] = p.capTrigLayout.rate.get w
    (p.Valid →
      (¬ coded → exec (.capDect w) s = .refused (.codeWithoutValue w)) ∧
      (coded → ∃ t : TrigCfg,
        exec (.capDect w) s = .next { s with outcome := some (.ok (.trig t)) } ∧ TrigWordHas p t w)) ∧
    (p = defaultParams →
      (w.extractLsb' 10 2 = 0 → exec (.capDect w) s = .refused (.codeWithoutValue w)) ∧
      (w.extractLsb' 10 2 ≠ 0 → ∃ t : TrigCfg,
        exec (.capDect w) s = .next { s with outcome := some (.ok (.trig t)) } ∧
        t.reset = w.getLsbD 15 ∧ rateCode t.rate = (w.extractLsb' 10 2).toNat ∧ t.rep = w.getLsbD 8 ∧
        ∀ n : Fin 4, t.init[n] = w.getLsbD (7 - n) ∧ t.done[n] = w.getLsbD (3 - n)))

/-- 41_cap.md R186: the 24 bits are the MSB word and the top byte of the LSB word, read as two's complement. -/
def Obligations.CapAsmAssemblesTheResult : Prop :=
  ∀ (m l : Word) (s : State), s.Idle →
    let v := m.toNat * 256 + l.toNat / 256
    exec (.capAsm m l) s = .next { s with outcome := some (.ok (.raw
      (if v < 2 ^ 23 then (v : Int) else (v : Int) - 2 ^ 24))) }

/-- 41_cap.md R185. -/
def Obligations.CapSetrateHoldsTheRate : Prop :=
  ∀ (rate : Rate) (s : State), s.Idle →
    exec (.capSetrate rate) s = .next { s with capRate := rate, outcome := some (.ok .none) }

/-- 41_cap.md R188, for every valid parameter record (00_scope.md R5; its ceiling bounds the operand,
notes/assumptions/26.md): when the bus port answers everything and the slot's done flag is set, the six events happen
in order and the assembled result is returned; nothing else changes. The last clause names the words and the flag's
place under the default layouts (general knowledge, notes/assumptions/10.md). -/
def Obligations.CapMeasReturnsTheReading : Prop :=
  (∀ (ch : Fin 4) (capdac : Nat) (s : State) (b0 b1 m0 m1 l0 l1 : Byte) (ws : List WriteReply) (rs : List ReadReply),
    s.Idle → s.params.Valid → capdac ≤ s.params.capDacMax → s.wrTape = .ok :: .ok :: ws →
    s.rdTape = .ok b0 b1 :: .ok m0 m1 :: .ok l0 l1 :: rs → doneBit s.params ch (b0 ++ b1) = true →
    exec (.capMeas ch capdac) s = .next { s with
      wrTape := ws
      rdTape := rs
      events := s.events ++
        measureEvents s.params s.capRate ch capdac .ok .ok (.ok b0 b1) (.ok m0 m1) (.ok l0 l1)
      outcome := some (.ok (.raw (capAssemble (m0 ++ m1) (l0 ++ l1)).toInt)) }) ∧
  (∀ (rate : Rate) (ch : Fin 4) (capdac : Nat) (r1 r2 : WriteReply) (r3 r4 r5 : ReadReply) (w : Word), capdac ≤ 31 →
    let conf := (defaultMeasureWords rate ch capdac).1
    let trig := (defaultMeasureWords rate ch capdac).2
    (measureEvents defaultParams rate ch capdac r1 r2 r3 r4 r5).take 2 =
      [.busWrite 0x50 (BitVec.ofNat 8 (8 + ch)) (conf.extractLsb' 8 8) (conf.extractLsb' 0 8) r1,
        .busWrite 0x50 0x0C (trig.extractLsb' 8 8) (trig.extractLsb' 0 8) r2] ∧
    doneBit defaultParams ch w = w.getLsbD (3 - ch))

/-- 41_cap.md R188 step 5, R194 step 3, 60_exceptions.md R273, R284, for every valid parameter record
(notes/assumptions/26.md): a clear done flag ends CAP.MEAS after four events, whatever the other bits of the status word
are; no result register is read. It ends CAP.READ in the same way, at its first measurement and at a later turn
(notes/assumptions/1.md): at once, with the same outcome, and with no further measurement. -/
def Obligations.DoneFlagClearEndsTheOperation : Prop :=
  ∀ (ch : Fin 4) (s : State) (b0 b1 : Byte) (ws : List WriteReply) (rs : List ReadReply),
    s.params.Valid → s.wrTape = .ok :: .ok :: ws → s.rdTape = .ok b0 b1 :: rs →
    doneBit s.params ch (b0 ++ b1) = false →
    let measured : Nat → State := fun capdac => { s with
      wrTape := ws
      rdTape := rs
      events := s.events ++ (measureEvents s.params s.capRate ch capdac .ok .ok (.ok b0 b1) default default).take 4
      outcome := some (.measurementNotComplete ch) }
    (∀ capdac : Nat, s.Idle → capdac ≤ s.params.capDacMax →
      exec (.capMeas ch capdac) s = .next (measured capdac)) ∧
    (s.Idle → s.params.capSearchLimit ≠ some 0 → exec (.capRead ch) s = .next (measured 0)) ∧
    (∀ (dac : Byte) (iter : Nat), s.busy = true → s.seq = some (.capRead ch 2) → s.capDac = some dac →
      s.capIter = some iter → s.adcPolls = none → s.srIdx = none → s.params.capSearchLimit ≠ some iter →
      dac.toNat ≤ s.params.capDacMax →
      step s = .next { measured dac.toNat with busy := false, seq := none, capDac := none, capIter := none })

/-- 41_cap.md R188, R194 step 3, 60_exceptions.md R272, for every valid parameter record (notes/assumptions/26.md): a bus
error at each of the five transactions of a measurement ends CAP.MEAS there with that error, and only the events up to
it happen. It ends CAP.READ in the same way, at its first measurement and at a later turn (notes/assumptions/1.md). -/
def Obligations.MeasurementStopsAtABusError : Prop :=
  ∀ (ch : Fin 4) (capdac e : Nat) (s : State) (b0 b1 m0 m1 : Byte) (ws : List WriteReply) (rs : List ReadReply),
    s.params.Valid → capdac ≤ s.params.capDacMax → doneBit s.params ch (b0 ++ b1) = true →
    ∀ q ∈ failedMeasurements s.params s.capRate ch capdac e b0 b1 m0 m1,
      s.wrTape = q.1 ++ ws → s.rdTape = q.2.1 ++ rs →
      let failed : State :=
        { s with wrTape := ws, rdTape := rs, events := s.events ++ q.2.2, outcome := some (.busError e) }
      (s.Idle → exec (.capMeas ch capdac) s = .next failed) ∧
      (s.Idle → capdac = 0 → s.params.capSearchLimit ≠ some 0 → exec (.capRead ch) s = .next failed) ∧
      (∀ (dac : Byte) (iter : Nat), dac.toNat = capdac → s.busy = true → s.seq = some (.capRead ch 2) →
        s.capDac = some dac → s.capIter = some iter → s.adcPolls = none → s.srIdx = none →
        s.params.capSearchLimit ≠ some iter →
        step s = .next { failed with busy := false, seq := none, capDac := none, capIter := none })

/-- 70_reset_and_hazards.md R315, 60_exceptions.md R285: a channel above 3 or a calibration value above the ceiling is
refused, never truncated. That the bound is the parameter CAP_DAC_MAX, where the rules write its default 31, is read by
inference (DEDUCED, notes/assumptions/26.md). -/
def Obligations.CapOperandsOutsideTheirDomainAreRefused : Prop :=
  ∀ (s : State) (ch capdac : Nat) (raw : Word24),
    (3 < ch → exec (.capMeas ch capdac) s = .refused (.channelOutOfDomain ch) ∧
      exec (.capRead ch) s = .refused (.channelOutOfDomain ch)) ∧
    (ch ≤ 3 → s.params.capDacMax < capdac →
      exec (.capMeas ch capdac) s = .refused (.capdacOutOfDomain capdac)) ∧
    (s.params.capDacMax < capdac → exec (.capPf raw capdac) s = .refused (.capdacOutOfDomain capdac) ∧
      exec (.capAf raw capdac) s = .refused (.capdacOutOfDomain capdac))

/-- 41_cap.md R194, the first turn (notes/assumptions/1.md), for every valid parameter record whose limit is not 0
measurements: a reading strictly between the bounds ends the search with `InRange` at calibration value 0, MIN24 ends
it with `Underflow`, and MAX24 leaves it running at calibration value 1 after one measurement, or ends it with
`Overflow` when the ceiling is 0 (notes/assumptions/26.md). -/
def Obligations.CapReadFirstReadingDecides : Prop :=
  ∀ (ch : Fin 4) (s : State) (b0 b1 m0 m1 l0 l1 : Byte) (ws : List WriteReply) (rs : List ReadReply),
    s.Idle → s.params.Valid → s.params.capSearchLimit ≠ some 0 → s.wrTape = .ok :: .ok :: ws →
    s.rdTape = .ok b0 b1 :: .ok m0 m1 :: .ok l0 l1 :: rs → doneBit s.params ch (b0 ++ b1) = true →
    let raw := (capAssemble (m0 ++ m1) (l0 ++ l1)).toInt
    let u : State := { s with
      wrTape := ws
      rdTape := rs
      events := s.events ++ measureEvents s.params s.capRate ch 0 .ok .ok (.ok b0 b1) (.ok m0 m1) (.ok l0 l1) }
    exec (.capRead ch) s = .next
      (if raw = 8388607 then
        if 0 < s.params.capDacMax then u.pausedAt (.capRead ch 2) none (some 1) (some 1)
        else { u with outcome := some (.ok (.range .overflow)) }
      else { u with outcome := some (.ok (.range
        (if raw = -8388608 then .underflow else .inRange raw 0))) })

/-- 41_cap.md R194, a later turn (notes/assumptions/1.md), for every valid parameter record: a running search at
calibration value `dac` after `iter` measurements, below its limit, makes one measurement and ends, or goes on at the
value above or below, as the reading says. The upper end of the values is the ceiling (notes/assumptions/26.md). -/
def Obligations.CapSearchTurnFollowsTheReading : Prop :=
  ∀ (ch : Fin 4) (iter : Nat) (dac : Byte) (s : State) (b0 b1 m0 m1 l0 l1 : Byte) (ws : List WriteReply)
    (rs : List ReadReply),
    s.params.Valid → s.params.capSearchLimit ≠ some iter → dac.toNat ≤ s.params.capDacMax →
    s.busy = true → s.seq = some (.capRead ch 2) → s.capDac = some dac → s.capIter = some iter →
    s.adcPolls = none → s.srIdx = none → s.wrTape = .ok :: .ok :: ws →
    s.rdTape = .ok b0 b1 :: .ok m0 m1 :: .ok l0 l1 :: rs → doneBit s.params ch (b0 ++ b1) = true →
    let raw := (capAssemble (m0 ++ m1) (l0 ++ l1)).toInt
    let u : State := { s with
      wrTape := ws
      rdTape := rs
      events := s.events ++
        measureEvents s.params s.capRate ch dac.toNat .ok .ok (.ok b0 b1) (.ok m0 m1) (.ok l0 l1) }
    let ended : RangeResult → State := fun r =>
      { u with busy := false, seq := none, capDac := none, capIter := none, outcome := some (.ok (.range r)) }
    step s = .next
      (if raw = 8388607 then
        if dac.toNat < s.params.capDacMax then { u with capDac := some (dac + 1), capIter := some (iter + 1) }
        else ended .overflow
      else if raw = -8388608 then
        if 0 < dac.toNat then { u with capDac := some (dac - 1), capIter := some (iter + 1) } else ended .underflow
      else ended (.inRange raw dac.toNat))

/-- 41_cap.md R195: the five cases of the step function. -/
def Obligations.SearchStepHasFiveCases : Prop :=
  ∀ (raw : Int) (dac : Nat), -8388608 ≤ raw → raw ≤ 8388607 → dac ≤ 31 →
    searchStep 31 raw dac =
      if -8388608 < raw ∧ raw < 8388607 then .done (.inRange raw dac)
      else if raw = 8388607 then (if dac < 31 then .next (dac + 1) else .done .overflow)
      else (if 0 < dac then .next (dac - 1) else .done .underflow)

/-- 41_cap.md R197: if no reading is MIN24, the search ends after at most 32 measurements (192 events), with `InRange`
or `Overflow`; default parameters (notes/assumptions/10.md). The number of machine steps is the model's choice
(notes/assumptions/1.md). -/
def Obligations.SearchEndsWithin32Measurements : Prop :=
  ∀ (ch : Nat) (s : State) (done : Word) (readings : List (Word × Word)) (ws : List WriteReply)
    (rs : List ReadReply),
    s.Idle → s.params = defaultParams → ch ≤ 3 → done.getLsbD (3 - ch) = true → readings.length = 32 →
    (∀ q ∈ readings, (capAssemble q.1 q.2).toInt ≠ -8388608) →
    s.wrTape = List.replicate 64 .ok ++ ws →
    s.rdTape = readings.flatMap (fun q => readingReplies done q.1 q.2) ++ rs →
    ∃ s0 k t r, exec (.capRead ch) s = .next s0 ∧ k ≤ 31 ∧ runSteps k s0 = .next t ∧ t.Idle ∧
      t.outcome = some (.ok (.range r)) ∧ r ≠ .underflow ∧
      t.events.length = s.events.length + 6 * (k + 1) ∧ t.persistent = s.persistent

/-- 41_cap.md R198, 60_exceptions.md R276, by machine steps of the model's choice (notes/assumptions/1.md): readings that alternate between the two bounds keep the search running for
any number of measurements when there is no limit, the calibration value going 1, 0, 1, 0, ...; and under a limit
equal to their number they end it with `SearchNotConverged`; default parameters but for the limit
(notes/assumptions/10.md). -/
def Obligations.AlternatingReadingsOscillate : Prop :=
  ∀ (ch n : Nat) (s : State) (done : Word) (ws : List WriteReply) (rs : List ReadReply) (limit : Option Nat),
    s.Idle → s.params = { defaultParams with capSearchLimit := limit } → ch ≤ 3 →
    done.getLsbD (3 - ch) = true → s.wrTape = List.replicate (2 * (n + 1)) .ok ++ ws →
    s.rdTape = (List.range (n + 1)).flatMap (fun j =>
      if j % 2 = 0 then readingReplies done 0x7FFF 0xFF00 else readingReplies done 0x8000 0x0000) ++ rs →
    (limit = none → ∃ s0 t, exec (.capRead ch) s = .next s0 ∧ runSteps n s0 = .next t ∧ t.busy = true ∧
      t.seq = some (.capRead ch 2) ∧ t.capDac = some (if n % 2 = 0 then 1 else 0) ∧ t.capIter = some (n + 1)) ∧
    (limit = some (n + 1) → ∃ s0 t, exec (.capRead ch) s = .next s0 ∧ runSteps (n + 1) s0 = .next t ∧ t.Idle ∧
      t.outcome = some (.searchNotConverged (n + 1)) ∧ t.events.length = s.events.length + 6 * (n + 1))

/-- 41_cap.md R200: picofarads by the divisor CAP_LSB_DIV and the step CAP_STEP_PF, as the port carries the real
(notes/assumptions/12.md; the exact rational for the exact representation). That the bound of the operand is the
parameter CAP_DAC_MAX, where the rule writes 31, is DEDUCED (notes/assumptions/26.md). -/
def Obligations.CapPfGivesPicofarads : Prop :=
  ∀ (raw : Word24) (capdac : Nat) (s : State), s.Idle →
    (s.params.capDacMax < capdac → exec (.capPf raw capdac) s = .refused (.capdacOutOfDomain capdac)) ∧
    (capdac ≤ s.params.capDacMax → exec (.capPf raw capdac) s = .next { s with outcome := some (.ok (.picofarads
      (s.params.carried ((raw.toInt : Rat) / (s.params.capLsbDiv : Rat) + (capdac : Rat) * s.params.capStepPf)))) })

/-- 41_cap.md R201: the raw term truncated toward zero. That the step stays 3125000 whatever CAP_STEP_PF is, and that
the bound of the operand is the parameter CAP_DAC_MAX, where the rule writes 31, are DEDUCED (notes/assumptions/24.md,
26.md). -/
def Obligations.CapAfGivesAttofarads : Prop :=
  ∀ (raw : Word24) (capdac : Nat) (s : State), s.Idle → 0 < s.params.capLsbDiv →
    (s.params.capDacMax < capdac → exec (.capAf raw capdac) s = .refused (.capdacOutOfDomain capdac)) ∧
    (capdac ≤ s.params.capDacMax → ∃ q : Int,
      exec (.capAf raw capdac) s = .next { s with outcome := some (.ok (.attofarads (q + capdac * 3125000))) } ∧
      (0 ≤ raw.toInt → q * s.params.capLsbDiv ≤ raw.toInt * 1000000 ∧
        raw.toInt * 1000000 < (q + 1) * s.params.capLsbDiv) ∧
      (raw.toInt < 0 → (q - 1) * s.params.capLsbDiv < raw.toInt * 1000000 ∧
        raw.toInt * 1000000 ≤ q * s.params.capLsbDiv))

/-- 41_cap.md R202: the two conversions agree to within one attofarad, and are equal when `raw` is a multiple of 8192;
default parameters (notes/assumptions/11.md), before the port's representation
(notes/assumptions/12.md). -/
def Obligations.ConversionsAgree : Prop :=
  ∀ (raw : Word24) (capdac : Nat), capdac ≤ 31 →
    let d : Rat := (capAttofarads defaultParams raw capdac : Rat) - 1000000 * capPicofarads defaultParams raw capdac
    d < 1 ∧ -1 < d ∧ (raw.toInt % 8192 = 0 → d = 0)

/-! ## Unit U3 -/

/-- 42_shift.md R221, R222, R223, R224: set, clear and read of one frame bit; an index above 15 fails and changes
nothing. -/
def Obligations.SrIndexOperations : Prop :=
  ∀ (i : Nat) (s : State), s.Idle →
    (∀ h : i < 16,
      exec (.srSet i) s = .next { s with frame := s.frame.set i true, outcome := some (.ok .none) } ∧
      exec (.srClr i) s = .next { s with frame := s.frame.set i false, outcome := some (.ok .none) } ∧
      exec (.srGet i) s = .next { s with outcome := some (.ok (.bool s.frame[i])) }) ∧
    (16 ≤ i →
      exec (.srSet i) s = .next { s with outcome := some (.indexOutOfRange i) } ∧
      exec (.srClr i) s = .next { s with outcome := some (.indexOutOfRange i) } ∧
      exec (.srGet i) s = .next { s with outcome := some (.indexOutOfRange i) } ∧
      exec (.srApplyclr i) s = .next { s with outcome := some (.indexOutOfRange i) } ∧
      exec (.srClrapply i) s = .next { s with outcome := some (.indexOutOfRange i) })

/-- 42_shift.md R225, 30_encoding.md R104: bit `i` of the packed word is `frame[i]`. -/
def Obligations.SrPackGivesTheFrameWord : Prop :=
  ∀ s : State, s.Idle → ∃ w : Word,
    exec .srPack s = .next { s with outcome := some (.ok (.word w)) } ∧
    (∀ i : Fin 16, w.getLsbD i = s.frame[i]) ∧ unpackFrame w = s.frame

/-- 42_shift.md R228: exactly the hundred events, the lines low at the end, the frame untouched; 53 microseconds asked
for, sixteen rises of SRCLK and one of RCLK. -/
def Obligations.SrTxSendsTheWord : Prop :=
  ∀ (w : Word) (s : State), s.Idle →
    exec (.srTx w) s = .next { s with
      ser := false, srclk := false, rclk := false
      events := s.events ++ frameEvents w
      outcome := some (.ok .none) } ∧
    (frameEvents w).length = 100 ∧ (frameEvents w).count (.pin .srclk true) = 16 ∧
    (frameEvents w).count (.pin .rclk true) = 1 ∧
    ((frameEvents w).map (fun e => match e with | .delay .us n => n | _ => 0)).sum = 53

/-- 42_shift.md R230, R231, R232: the composite operations are transmits of the packed frame; the applied index is
left false by SR.APPLYCLR and true by SR.CLRAPPLY; an index above 15 fails. The steps of those two are the spec's own
reading of the source (decision D29; DEDUCED, notes/assumptions/20.md). -/
def Obligations.SrCompositeOperations : Prop :=
  ∀ s : State, s.Idle →
    exec .srFlush s = .next { s with
      ser := false, srclk := false, rclk := false
      events := s.events ++ frameEvents (packFrame s.frame)
      outcome := some (.ok .none) } ∧
    (∀ (i : Nat) (h : i < 16),
      exec (.srApplyclr i) s = .next { s with
        frame := s.frame.set i false
        ser := false, srclk := false, rclk := false
        events := s.events ++ frameEvents (packFrame (s.frame.set i true)) ++
          frameEvents (packFrame (s.frame.set i false))
        outcome := some (.ok .none) } ∧
      exec (.srClrapply i) s = .next { s with
        frame := s.frame.set i true
        ser := false, srclk := false, rclk := false
        events := s.events ++ frameEvents (packFrame (s.frame.set i false)) ++
          frameEvents (packFrame (s.frame.set i true))
        outcome := some (.ok .none) }) ∧
    (∀ i : Nat, 16 ≤ i →
      exec (.srApplyclr i) s = .next { s with outcome := some (.indexOutOfRange i) } ∧
      exec (.srClrapply i) s = .next { s with outcome := some (.indexOutOfRange i) })

/-- 42_shift.md R229 e, 20_memory.md R69: at a receiver whose clock lines are low, whatever its stages hold, the
events of SR.TX leave the outputs as they were up to the latch clock's rise (the 98th event), and from it on output
`k` is `w[15 - k]`. The receiver takes rising edges (general knowledge GK13, notes/assumptions/29.md). -/
def Obligations.ReceiverOutputsChangeOnlyAtTheLatch : Prop :=
  ∀ (w : Word) (s t : State) (r : Receiver) (n : Nat), exec (.srTx w) s = .next t →
    r.srclk = false → r.rclk = false →
    let seen := receiveAll r ((t.events.drop s.events.length).take n)
    (n ≤ 97 → seen.outputs = r.outputs) ∧ (98 ≤ n → ∀ k : Fin 16, seen.outputs[k] = w.getLsbD (15 - k))

/-! ## Unit U4 -/

/-- 43_pwm.md R252: the divider by frequency range; a frequency of 0 is refused. That a frequency above `REF_CLK_HZ` is
looked up too is DEDUCED, from vector V-P18 of 95_test_vectors.md among others (notes/assumptions/32.md). -/
def Obligations.PwmDivLooksUpTheDivider : Prop :=
  ∀ (f : BitVec 32) (s : State), s.Idle →
    (f.toNat = 0 → exec (.pwmDiv f) s = .refused .frequencyZero) ∧
    (f.toNat ≠ 0 → exec (.pwmDiv f) s = .next { s with outcome := some (.ok (.div
      (if 2000 ≤ f.toNat then 1
      else if 200 ≤ f.toNat then 10
      else if 20 ≤ f.toNat then 100
      else if 10 ≤ f.toNat then 200
      else 255))) })

/-- 43_pwm.md R253, R256, R257 a and b: the top is the floored quotient less one, halved with phase-correct; its fit
flag goes with it; a frequency of 0 and a quotient of 0 are refused. -/
def Obligations.PwmTopComputesTheTop : Prop :=
  ∀ (f : BitVec 32) (phaseCorrect : Bool) (s : State), s.Idle →
    (f.toNat = 0 → exec (.pwmTop f phaseCorrect) s = .refused .frequencyZero) ∧
    (f.toNat ≠ 0 → s.params.refClkHz < f.toNat * pwmDivider f →
      exec (.pwmTop f phaseCorrect) s = .refused .frequencyAboveReference) ∧
    (f.toNat ≠ 0 → f.toNat * pwmDivider f ≤ s.params.refClkHz →
      let q := s.params.refClkHz / (f.toNat * pwmDivider f)
      let top := if phaseCorrect then (q - 1) / 2 else q - 1
      exec (.pwmTop f phaseCorrect) s = .next { s with outcome := some (.ok (.top top
        (decide (top < 2 ^ s.params.pwmTopBits)))) })

/-- 43_pwm.md R250 b, R251, R254, R257 c: the compare value is the integer nearest to duty times top over 100, a tie
going up, and at most the top; a duty outside 0 to 100 and a top above `REF_CLK_HZ - 1` are refused. The duty is the
one the port carries (DESIGN CHOICE, notes/assumptions/12.md; the operand itself for the exact representation), the
rounding is the spec's own choice (decision D34), and that the refusal of R250 b reaches the top, after the duty, is
read by inference (DEDUCED, notes/assumptions/31.md). -/
def Obligations.PwmCmpRoundsToNearest : Prop :=
  ∀ (duty : Rat) (top : Nat) (s : State), s.Idle →
    let d := s.params.carried duty
    ((d < 0 ∨ 100 < d) → exec (.pwmCmp duty top) s = .refused .dutyOutOfDomain) ∧
    (0 ≤ d → d ≤ 100 → s.params.refClkHz ≤ top → exec (.pwmCmp duty top) s = .refused (.topOutOfDomain top)) ∧
    (0 ≤ d → d ≤ 100 → top < s.params.refClkHz → ∃ cc : Nat,
      exec (.pwmCmp duty top) s = .next { s with outcome := some (.ok (.compare cc)) } ∧
      (cc : Rat) - 1 / 2 ≤ d * top / 100 ∧ d * top / 100 < (cc : Rat) + 1 / 2 ∧ cc ≤ top)

/-- 43_pwm.md R255: PWM.SET is the divider, the top and the two compare values of the other three operations,
delivered in one event; if one of them refuses, so does it. The duties are those the port carries (DESIGN CHOICE,
notes/assumptions/12.md), and that the compare values take the final top is the spec's own reading (decision D34). -/
def Obligations.PwmSetCombinesTheThree : Prop :=
  ∀ (f : BitVec 32) (dutyA dutyB : Rat) (phaseCorrect : Bool) (s : State), s.Idle →
    let a := s.params.carried dutyA
    let b := s.params.carried dutyB
    (f.toNat ≠ 0 → f.toNat * pwmDivider f ≤ s.params.refClkHz → 0 ≤ a → a ≤ 100 → 0 ≤ b → b ≤ 100 →
      ∃ (div top ccA ccB : Nat) (fits : Bool),
        exec (.pwmDiv f) s = .next { s with outcome := some (.ok (.div div)) } ∧
        exec (.pwmTop f phaseCorrect) s = .next { s with outcome := some (.ok (.top top fits)) } ∧
        exec (.pwmCmp dutyA top) s = .next { s with outcome := some (.ok (.compare ccA)) } ∧
        exec (.pwmCmp dutyB top) s = .next { s with outcome := some (.ok (.compare ccB)) } ∧
        exec (.pwmSet f dutyA dutyB phaseCorrect) s = .next { s with
          events := s.events ++ [.pwm div top ccA ccB]
          outcome := some (.ok (.pwm div top ccA ccB fits)) }) ∧
    ((f.toNat = 0 ∨ s.params.refClkHz < f.toNat * pwmDivider f ∨ a < 0 ∨ 100 < a ∨ b < 0 ∨ 100 < b) →
      ∃ r, exec (.pwmSet f dutyA dutyB phaseCorrect) s = .refused r)

/-- 43_pwm.md R258 a to d: laws of the quantizer. -/
def Obligations.PwmLaws : Prop :=
  (∀ f g : BitVec 32, f.toNat ≤ g.toNat → pwmDivider g ≤ pwmDivider f) ∧
  (∀ (p : Params) (f : BitVec 32), f.toNat ≠ 0 → f.toNat * pwmDivider f ≤ p.refClkHz →
    (pwmTopOf p f false + 1) * f.toNat * pwmDivider f ≤ p.refClkHz ∧
    p.refClkHz < (pwmTopOf p f false + 2) * f.toNat * pwmDivider f) ∧
  (∀ (duty : Rat) (top : Nat), 0 ≤ duty → duty ≤ 100 → pwmCompareOf duty top ≤ top) ∧
  (∀ (p : Params) (f : BitVec 32), pwmTopOf p f true = pwmTopOf p f false / 2)

/-- 43_pwm.md R256: with the defaults (general knowledge GK14, notes/assumptions/11.md) the top does not fit exactly
for 1 to 7 Hz, and for 1 to 3 Hz with phase-correct. -/
def Obligations.TopFitsExceptAtLowFrequencies : Prop :=
  ∀ f : BitVec 32, 1 ≤ f.toNat → f.toNat ≤ 125000000 →
    (fitFlag defaultParams (pwmTopOf defaultParams f false) = false ↔ f.toNat ≤ 7) ∧
    (fitFlag defaultParams (pwmTopOf defaultParams f true) = false ↔ f.toNat ≤ 3)

/-! ## The register-word rows -/

/-- The model's choice for the register-word rows (notes/assumptions/4.md; 30_encoding.md R81, R92, R103): the value
the word stands for is returned and nothing else changes; a word of each format, read under the default parameters. -/
def Obligations.RegisterWordRowsReturnTheirValue : Prop :=
  ∀ s : State, s.Idle →
    (∀ c st, exec (.wordAdcConfig c st) s = .next { s with outcome := some (.ok (.cfgStatus c st)) }) ∧
    (∀ raw, exec (.wordAdcConv raw) s = .next { s with outcome := some (.ok (.raw raw.toInt)) }) ∧
    (∀ m, exec (.wordCapConf m) s = .next { s with outcome := some (.ok (.meas m)) }) ∧
    (∀ t, exec (.wordCapTrig t) s = .next { s with outcome := some (.ok (.trig t)) }) ∧
    (∀ h, exec (.wordCapMsb h) s = .next { s with outcome := some (.ok (.word h)) }) ∧
    (∀ l, exec (.wordCapLsb l) s = .next { s with outcome := some (.ok (.byte l)) }) ∧
    (∀ f, exec (.wordSrFrame f) s = .next { s with outcome := some (.ok (.frame f)) })
end

