-- ==== Sys2Proof/Laws/State.lean ====
section
/-! SUPPORT. One lemma per field per update of the state, so that no later proof unfolds a record update. -/

namespace Sys2Proof.Machine

/-! ## `finish` -/

@[simp] theorem finish_params (s : State) (o : OpOutcome) : (finish s o).params = s.params := rfl
@[simp] theorem finish_adcPresent (s : State) (o : OpOutcome) : (finish s o).adcPresent = s.adcPresent := rfl
@[simp] theorem finish_adcAddr (s : State) (o : OpOutcome) : (finish s o).adcAddr = s.adcAddr := rfl
@[simp] theorem finish_adcCfg (s : State) (o : OpOutcome) : (finish s o).adcCfg = s.adcCfg := rfl
@[simp] theorem finish_adcPolls (s : State) (o : OpOutcome) : (finish s o).adcPolls = none := rfl
@[simp] theorem finish_capRate (s : State) (o : OpOutcome) : (finish s o).capRate = s.capRate := rfl
@[simp] theorem finish_capDac (s : State) (o : OpOutcome) : (finish s o).capDac = none := rfl
@[simp] theorem finish_capIter (s : State) (o : OpOutcome) : (finish s o).capIter = none := rfl
@[simp] theorem finish_frame (s : State) (o : OpOutcome) : (finish s o).frame = s.frame := rfl
@[simp] theorem finish_ser (s : State) (o : OpOutcome) : (finish s o).ser = s.ser := rfl
@[simp] theorem finish_srclk (s : State) (o : OpOutcome) : (finish s o).srclk = s.srclk := rfl
@[simp] theorem finish_rclk (s : State) (o : OpOutcome) : (finish s o).rclk = s.rclk := rfl
@[simp] theorem finish_srIdx (s : State) (o : OpOutcome) : (finish s o).srIdx = none := rfl
@[simp] theorem finish_seq (s : State) (o : OpOutcome) : (finish s o).seq = none := rfl
@[simp] theorem finish_busy (s : State) (o : OpOutcome) : (finish s o).busy = false := rfl
@[simp] theorem finish_host (s : State) (o : OpOutcome) : (finish s o).host = s.host := rfl
@[simp] theorem finish_outcome (s : State) (o : OpOutcome) : (finish s o).outcome = some o := rfl
@[simp] theorem finish_events (s : State) (o : OpOutcome) : (finish s o).events = s.events := rfl
@[simp] theorem finish_wrTape (s : State) (o : OpOutcome) : (finish s o).wrTape = s.wrTape := rfl
@[simp] theorem finish_rdTape (s : State) (o : OpOutcome) : (finish s o).rdTape = s.rdTape := rfl
@[simp] theorem finish_oracle (s : State) (o : OpOutcome) : (finish s o).oracle = s.oracle := rfl

/-! ## `raise` -/

@[simp] theorem raise_params (s : State) (o : OpOutcome) : (raise s o).params = s.params := rfl
@[simp] theorem raise_adcPresent (s : State) (o : OpOutcome) : (raise s o).adcPresent = s.adcPresent := rfl
@[simp] theorem raise_adcAddr (s : State) (o : OpOutcome) : (raise s o).adcAddr = s.adcAddr := rfl
@[simp] theorem raise_adcCfg (s : State) (o : OpOutcome) : (raise s o).adcCfg = s.adcCfg := rfl
@[simp] theorem raise_adcPolls (s : State) (o : OpOutcome) : (raise s o).adcPolls = none := rfl
@[simp] theorem raise_capRate (s : State) (o : OpOutcome) : (raise s o).capRate = s.capRate := rfl
@[simp] theorem raise_capDac (s : State) (o : OpOutcome) : (raise s o).capDac = none := rfl
@[simp] theorem raise_capIter (s : State) (o : OpOutcome) : (raise s o).capIter = none := rfl
@[simp] theorem raise_frame (s : State) (o : OpOutcome) : (raise s o).frame = s.frame := rfl
@[simp] theorem raise_ser (s : State) (o : OpOutcome) : (raise s o).ser = s.ser := rfl
@[simp] theorem raise_srclk (s : State) (o : OpOutcome) : (raise s o).srclk = s.srclk := rfl
@[simp] theorem raise_rclk (s : State) (o : OpOutcome) : (raise s o).rclk = s.rclk := rfl
@[simp] theorem raise_srIdx (s : State) (o : OpOutcome) : (raise s o).srIdx = none := rfl
@[simp] theorem raise_seq (s : State) (o : OpOutcome) : (raise s o).seq = none := rfl
@[simp] theorem raise_busy (s : State) (o : OpOutcome) : (raise s o).busy = false := rfl
@[simp] theorem raise_host (s : State) (o : OpOutcome) : (raise s o).host = s.host := rfl
@[simp] theorem raise_outcome (s : State) (o : OpOutcome) : (raise s o).outcome = some o := rfl
@[simp] theorem raise_events (s : State) (o : OpOutcome) : (raise s o).events = s.events := rfl
@[simp] theorem raise_wrTape (s : State) (o : OpOutcome) : (raise s o).wrTape = s.wrTape := rfl
@[simp] theorem raise_rdTape (s : State) (o : OpOutcome) : (raise s o).rdTape = s.rdTape := rfl
@[simp] theorem raise_oracle (s : State) (o : OpOutcome) : (raise s o).oracle = s.oracle := rfl

/-! ## `returnOk` -/

@[simp] theorem returnOk_params (s : State) (v : Value) : (returnOk s v).params = s.params := rfl
@[simp] theorem returnOk_adcPresent (s : State) (v : Value) : (returnOk s v).adcPresent = s.adcPresent := rfl
@[simp] theorem returnOk_adcAddr (s : State) (v : Value) : (returnOk s v).adcAddr = s.adcAddr := rfl
@[simp] theorem returnOk_adcCfg (s : State) (v : Value) : (returnOk s v).adcCfg = s.adcCfg := rfl
@[simp] theorem returnOk_adcPolls (s : State) (v : Value) : (returnOk s v).adcPolls = none := rfl
@[simp] theorem returnOk_capRate (s : State) (v : Value) : (returnOk s v).capRate = s.capRate := rfl
@[simp] theorem returnOk_capDac (s : State) (v : Value) : (returnOk s v).capDac = none := rfl
@[simp] theorem returnOk_capIter (s : State) (v : Value) : (returnOk s v).capIter = none := rfl
@[simp] theorem returnOk_frame (s : State) (v : Value) : (returnOk s v).frame = s.frame := rfl
@[simp] theorem returnOk_ser (s : State) (v : Value) : (returnOk s v).ser = s.ser := rfl
@[simp] theorem returnOk_srclk (s : State) (v : Value) : (returnOk s v).srclk = s.srclk := rfl
@[simp] theorem returnOk_rclk (s : State) (v : Value) : (returnOk s v).rclk = s.rclk := rfl
@[simp] theorem returnOk_srIdx (s : State) (v : Value) : (returnOk s v).srIdx = none := rfl
@[simp] theorem returnOk_seq (s : State) (v : Value) : (returnOk s v).seq = none := rfl
@[simp] theorem returnOk_busy (s : State) (v : Value) : (returnOk s v).busy = false := rfl
@[simp] theorem returnOk_host (s : State) (v : Value) : (returnOk s v).host = s.host := rfl
@[simp] theorem returnOk_outcome (s : State) (v : Value) : (returnOk s v).outcome = some (.ok v) := rfl
@[simp] theorem returnOk_events (s : State) (v : Value) : (returnOk s v).events = s.events := rfl
@[simp] theorem returnOk_wrTape (s : State) (v : Value) : (returnOk s v).wrTape = s.wrTape := rfl
@[simp] theorem returnOk_rdTape (s : State) (v : Value) : (returnOk s v).rdTape = s.rdTape := rfl
@[simp] theorem returnOk_oracle (s : State) (v : Value) : (returnOk s v).oracle = s.oracle := rfl

/-! ## `goTo` -/

@[simp] theorem goTo_params (s : State) (q : Seq) : (goTo s q).params = s.params := rfl
@[simp] theorem goTo_adcPresent (s : State) (q : Seq) : (goTo s q).adcPresent = s.adcPresent := rfl
@[simp] theorem goTo_adcAddr (s : State) (q : Seq) : (goTo s q).adcAddr = s.adcAddr := rfl
@[simp] theorem goTo_adcCfg (s : State) (q : Seq) : (goTo s q).adcCfg = s.adcCfg := rfl
@[simp] theorem goTo_adcPolls (s : State) (q : Seq) : (goTo s q).adcPolls = s.adcPolls := rfl
@[simp] theorem goTo_capRate (s : State) (q : Seq) : (goTo s q).capRate = s.capRate := rfl
@[simp] theorem goTo_capDac (s : State) (q : Seq) : (goTo s q).capDac = s.capDac := rfl
@[simp] theorem goTo_capIter (s : State) (q : Seq) : (goTo s q).capIter = s.capIter := rfl
@[simp] theorem goTo_frame (s : State) (q : Seq) : (goTo s q).frame = s.frame := rfl
@[simp] theorem goTo_ser (s : State) (q : Seq) : (goTo s q).ser = s.ser := rfl
@[simp] theorem goTo_srclk (s : State) (q : Seq) : (goTo s q).srclk = s.srclk := rfl
@[simp] theorem goTo_rclk (s : State) (q : Seq) : (goTo s q).rclk = s.rclk := rfl
@[simp] theorem goTo_srIdx (s : State) (q : Seq) : (goTo s q).srIdx = s.srIdx := rfl
@[simp] theorem goTo_seq (s : State) (q : Seq) : (goTo s q).seq = some q := rfl
@[simp] theorem goTo_busy (s : State) (q : Seq) : (goTo s q).busy = true := rfl
@[simp] theorem goTo_host (s : State) (q : Seq) : (goTo s q).host = s.host := rfl
@[simp] theorem goTo_outcome (s : State) (q : Seq) : (goTo s q).outcome = s.outcome := rfl
@[simp] theorem goTo_events (s : State) (q : Seq) : (goTo s q).events = s.events := rfl
@[simp] theorem goTo_wrTape (s : State) (q : Seq) : (goTo s q).wrTape = s.wrTape := rfl
@[simp] theorem goTo_rdTape (s : State) (q : Seq) : (goTo s q).rdTape = s.rdTape := rfl
@[simp] theorem goTo_oracle (s : State) (q : Seq) : (goTo s q).oracle = s.oracle := rfl

/-! ## `emit` -/

@[simp] theorem emit_params (s : State) (e : Event) : (emit s e).params = s.params := rfl
@[simp] theorem emit_adcPresent (s : State) (e : Event) : (emit s e).adcPresent = s.adcPresent := rfl
@[simp] theorem emit_adcAddr (s : State) (e : Event) : (emit s e).adcAddr = s.adcAddr := rfl
@[simp] theorem emit_adcCfg (s : State) (e : Event) : (emit s e).adcCfg = s.adcCfg := rfl
@[simp] theorem emit_adcPolls (s : State) (e : Event) : (emit s e).adcPolls = s.adcPolls := rfl
@[simp] theorem emit_capRate (s : State) (e : Event) : (emit s e).capRate = s.capRate := rfl
@[simp] theorem emit_capDac (s : State) (e : Event) : (emit s e).capDac = s.capDac := rfl
@[simp] theorem emit_capIter (s : State) (e : Event) : (emit s e).capIter = s.capIter := rfl
@[simp] theorem emit_frame (s : State) (e : Event) : (emit s e).frame = s.frame := rfl
@[simp] theorem emit_ser (s : State) (e : Event) : (emit s e).ser = s.ser := rfl
@[simp] theorem emit_srclk (s : State) (e : Event) : (emit s e).srclk = s.srclk := rfl
@[simp] theorem emit_rclk (s : State) (e : Event) : (emit s e).rclk = s.rclk := rfl
@[simp] theorem emit_srIdx (s : State) (e : Event) : (emit s e).srIdx = s.srIdx := rfl
@[simp] theorem emit_seq (s : State) (e : Event) : (emit s e).seq = s.seq := rfl
@[simp] theorem emit_busy (s : State) (e : Event) : (emit s e).busy = s.busy := rfl
@[simp] theorem emit_host (s : State) (e : Event) : (emit s e).host = s.host := rfl
@[simp] theorem emit_outcome (s : State) (e : Event) : (emit s e).outcome = s.outcome := rfl
@[simp] theorem emit_events (s : State) (e : Event) : (emit s e).events = s.events ++ [e] := rfl
@[simp] theorem emit_wrTape (s : State) (e : Event) : (emit s e).wrTape = s.wrTape := rfl
@[simp] theorem emit_rdTape (s : State) (e : Event) : (emit s e).rdTape = s.rdTape := rfl
@[simp] theorem emit_oracle (s : State) (e : Event) : (emit s e).oracle = s.oracle := rfl

/-! ## `delay` -/

@[simp] theorem delay_params (u : TimeUnit) (n : Nat) (s : State) : (delay u n s).params = s.params := rfl
@[simp] theorem delay_adcPresent (u : TimeUnit) (n : Nat) (s : State) : (delay u n s).adcPresent = s.adcPresent := rfl
@[simp] theorem delay_adcAddr (u : TimeUnit) (n : Nat) (s : State) : (delay u n s).adcAddr = s.adcAddr := rfl
@[simp] theorem delay_adcCfg (u : TimeUnit) (n : Nat) (s : State) : (delay u n s).adcCfg = s.adcCfg := rfl
@[simp] theorem delay_adcPolls (u : TimeUnit) (n : Nat) (s : State) : (delay u n s).adcPolls = s.adcPolls := rfl
@[simp] theorem delay_capRate (u : TimeUnit) (n : Nat) (s : State) : (delay u n s).capRate = s.capRate := rfl
@[simp] theorem delay_capDac (u : TimeUnit) (n : Nat) (s : State) : (delay u n s).capDac = s.capDac := rfl
@[simp] theorem delay_capIter (u : TimeUnit) (n : Nat) (s : State) : (delay u n s).capIter = s.capIter := rfl
@[simp] theorem delay_frame (u : TimeUnit) (n : Nat) (s : State) : (delay u n s).frame = s.frame := rfl
@[simp] theorem delay_ser (u : TimeUnit) (n : Nat) (s : State) : (delay u n s).ser = s.ser := rfl
@[simp] theorem delay_srclk (u : TimeUnit) (n : Nat) (s : State) : (delay u n s).srclk = s.srclk := rfl
@[simp] theorem delay_rclk (u : TimeUnit) (n : Nat) (s : State) : (delay u n s).rclk = s.rclk := rfl
@[simp] theorem delay_srIdx (u : TimeUnit) (n : Nat) (s : State) : (delay u n s).srIdx = s.srIdx := rfl
@[simp] theorem delay_seq (u : TimeUnit) (n : Nat) (s : State) : (delay u n s).seq = s.seq := rfl
@[simp] theorem delay_busy (u : TimeUnit) (n : Nat) (s : State) : (delay u n s).busy = s.busy := rfl
@[simp] theorem delay_host (u : TimeUnit) (n : Nat) (s : State) : (delay u n s).host = s.host := rfl
@[simp] theorem delay_outcome (u : TimeUnit) (n : Nat) (s : State) : (delay u n s).outcome = s.outcome := rfl
@[simp] theorem delay_events (u : TimeUnit) (n : Nat) (s : State) : (delay u n s).events = s.events ++ [.delay u n] := rfl
@[simp] theorem delay_wrTape (u : TimeUnit) (n : Nat) (s : State) : (delay u n s).wrTape = s.wrTape := rfl
@[simp] theorem delay_rdTape (u : TimeUnit) (n : Nat) (s : State) : (delay u n s).rdTape = s.rdTape := rfl
@[simp] theorem delay_oracle (u : TimeUnit) (n : Nat) (s : State) : (delay u n s).oracle = s.oracle := rfl

/-! ## `pin .ser` -/

@[simp] theorem pin_ser_params (b : Bool) (s : State) : (pin .ser b s).params = s.params := rfl
@[simp] theorem pin_ser_adcPresent (b : Bool) (s : State) : (pin .ser b s).adcPresent = s.adcPresent := rfl
@[simp] theorem pin_ser_adcAddr (b : Bool) (s : State) : (pin .ser b s).adcAddr = s.adcAddr := rfl
@[simp] theorem pin_ser_adcCfg (b : Bool) (s : State) : (pin .ser b s).adcCfg = s.adcCfg := rfl
@[simp] theorem pin_ser_adcPolls (b : Bool) (s : State) : (pin .ser b s).adcPolls = s.adcPolls := rfl
@[simp] theorem pin_ser_capRate (b : Bool) (s : State) : (pin .ser b s).capRate = s.capRate := rfl
@[simp] theorem pin_ser_capDac (b : Bool) (s : State) : (pin .ser b s).capDac = s.capDac := rfl
@[simp] theorem pin_ser_capIter (b : Bool) (s : State) : (pin .ser b s).capIter = s.capIter := rfl
@[simp] theorem pin_ser_frame (b : Bool) (s : State) : (pin .ser b s).frame = s.frame := rfl
@[simp] theorem pin_ser_ser (b : Bool) (s : State) : (pin .ser b s).ser = b := rfl
@[simp] theorem pin_ser_srclk (b : Bool) (s : State) : (pin .ser b s).srclk = s.srclk := rfl
@[simp] theorem pin_ser_rclk (b : Bool) (s : State) : (pin .ser b s).rclk = s.rclk := rfl
@[simp] theorem pin_ser_srIdx (b : Bool) (s : State) : (pin .ser b s).srIdx = s.srIdx := rfl
@[simp] theorem pin_ser_seq (b : Bool) (s : State) : (pin .ser b s).seq = s.seq := rfl
@[simp] theorem pin_ser_busy (b : Bool) (s : State) : (pin .ser b s).busy = s.busy := rfl
@[simp] theorem pin_ser_host (b : Bool) (s : State) : (pin .ser b s).host = s.host := rfl
@[simp] theorem pin_ser_outcome (b : Bool) (s : State) : (pin .ser b s).outcome = s.outcome := rfl
@[simp] theorem pin_ser_events (b : Bool) (s : State) : (pin .ser b s).events = s.events ++ [.pin .ser b] := rfl
@[simp] theorem pin_ser_wrTape (b : Bool) (s : State) : (pin .ser b s).wrTape = s.wrTape := rfl
@[simp] theorem pin_ser_rdTape (b : Bool) (s : State) : (pin .ser b s).rdTape = s.rdTape := rfl
@[simp] theorem pin_ser_oracle (b : Bool) (s : State) : (pin .ser b s).oracle = s.oracle := rfl

/-! ## `pin .srclk` -/

@[simp] theorem pin_srclk_params (b : Bool) (s : State) : (pin .srclk b s).params = s.params := rfl
@[simp] theorem pin_srclk_adcPresent (b : Bool) (s : State) : (pin .srclk b s).adcPresent = s.adcPresent := rfl
@[simp] theorem pin_srclk_adcAddr (b : Bool) (s : State) : (pin .srclk b s).adcAddr = s.adcAddr := rfl
@[simp] theorem pin_srclk_adcCfg (b : Bool) (s : State) : (pin .srclk b s).adcCfg = s.adcCfg := rfl
@[simp] theorem pin_srclk_adcPolls (b : Bool) (s : State) : (pin .srclk b s).adcPolls = s.adcPolls := rfl
@[simp] theorem pin_srclk_capRate (b : Bool) (s : State) : (pin .srclk b s).capRate = s.capRate := rfl
@[simp] theorem pin_srclk_capDac (b : Bool) (s : State) : (pin .srclk b s).capDac = s.capDac := rfl
@[simp] theorem pin_srclk_capIter (b : Bool) (s : State) : (pin .srclk b s).capIter = s.capIter := rfl
@[simp] theorem pin_srclk_frame (b : Bool) (s : State) : (pin .srclk b s).frame = s.frame := rfl
@[simp] theorem pin_srclk_ser (b : Bool) (s : State) : (pin .srclk b s).ser = s.ser := rfl
@[simp] theorem pin_srclk_srclk (b : Bool) (s : State) : (pin .srclk b s).srclk = b := rfl
@[simp] theorem pin_srclk_rclk (b : Bool) (s : State) : (pin .srclk b s).rclk = s.rclk := rfl
@[simp] theorem pin_srclk_srIdx (b : Bool) (s : State) : (pin .srclk b s).srIdx = s.srIdx := rfl
@[simp] theorem pin_srclk_seq (b : Bool) (s : State) : (pin .srclk b s).seq = s.seq := rfl
@[simp] theorem pin_srclk_busy (b : Bool) (s : State) : (pin .srclk b s).busy = s.busy := rfl
@[simp] theorem pin_srclk_host (b : Bool) (s : State) : (pin .srclk b s).host = s.host := rfl
@[simp] theorem pin_srclk_outcome (b : Bool) (s : State) : (pin .srclk b s).outcome = s.outcome := rfl
@[simp] theorem pin_srclk_events (b : Bool) (s : State) : (pin .srclk b s).events = s.events ++ [.pin .srclk b] := rfl
@[simp] theorem pin_srclk_wrTape (b : Bool) (s : State) : (pin .srclk b s).wrTape = s.wrTape := rfl
@[simp] theorem pin_srclk_rdTape (b : Bool) (s : State) : (pin .srclk b s).rdTape = s.rdTape := rfl
@[simp] theorem pin_srclk_oracle (b : Bool) (s : State) : (pin .srclk b s).oracle = s.oracle := rfl

/-! ## `pin .rclk` -/

@[simp] theorem pin_rclk_params (b : Bool) (s : State) : (pin .rclk b s).params = s.params := rfl
@[simp] theorem pin_rclk_adcPresent (b : Bool) (s : State) : (pin .rclk b s).adcPresent = s.adcPresent := rfl
@[simp] theorem pin_rclk_adcAddr (b : Bool) (s : State) : (pin .rclk b s).adcAddr = s.adcAddr := rfl
@[simp] theorem pin_rclk_adcCfg (b : Bool) (s : State) : (pin .rclk b s).adcCfg = s.adcCfg := rfl
@[simp] theorem pin_rclk_adcPolls (b : Bool) (s : State) : (pin .rclk b s).adcPolls = s.adcPolls := rfl
@[simp] theorem pin_rclk_capRate (b : Bool) (s : State) : (pin .rclk b s).capRate = s.capRate := rfl
@[simp] theorem pin_rclk_capDac (b : Bool) (s : State) : (pin .rclk b s).capDac = s.capDac := rfl
@[simp] theorem pin_rclk_capIter (b : Bool) (s : State) : (pin .rclk b s).capIter = s.capIter := rfl
@[simp] theorem pin_rclk_frame (b : Bool) (s : State) : (pin .rclk b s).frame = s.frame := rfl
@[simp] theorem pin_rclk_ser (b : Bool) (s : State) : (pin .rclk b s).ser = s.ser := rfl
@[simp] theorem pin_rclk_srclk (b : Bool) (s : State) : (pin .rclk b s).srclk = s.srclk := rfl
@[simp] theorem pin_rclk_rclk (b : Bool) (s : State) : (pin .rclk b s).rclk = b := rfl
@[simp] theorem pin_rclk_srIdx (b : Bool) (s : State) : (pin .rclk b s).srIdx = s.srIdx := rfl
@[simp] theorem pin_rclk_seq (b : Bool) (s : State) : (pin .rclk b s).seq = s.seq := rfl
@[simp] theorem pin_rclk_busy (b : Bool) (s : State) : (pin .rclk b s).busy = s.busy := rfl
@[simp] theorem pin_rclk_host (b : Bool) (s : State) : (pin .rclk b s).host = s.host := rfl
@[simp] theorem pin_rclk_outcome (b : Bool) (s : State) : (pin .rclk b s).outcome = s.outcome := rfl
@[simp] theorem pin_rclk_events (b : Bool) (s : State) : (pin .rclk b s).events = s.events ++ [.pin .rclk b] := rfl
@[simp] theorem pin_rclk_wrTape (b : Bool) (s : State) : (pin .rclk b s).wrTape = s.wrTape := rfl
@[simp] theorem pin_rclk_rdTape (b : Bool) (s : State) : (pin .rclk b s).rdTape = s.rdTape := rfl
@[simp] theorem pin_rclk_oracle (b : Bool) (s : State) : (pin .rclk b s).oracle = s.oracle := rfl

/-! ## `takeWriteReply` -/

@[simp] theorem takeWriteReply_params (s : State) : (takeWriteReply s).params = s.params := by unfold takeWriteReply; split <;> simp [*]
@[simp] theorem takeWriteReply_adcPresent (s : State) : (takeWriteReply s).adcPresent = s.adcPresent := by unfold takeWriteReply; split <;> simp [*]
@[simp] theorem takeWriteReply_adcAddr (s : State) : (takeWriteReply s).adcAddr = s.adcAddr := by unfold takeWriteReply; split <;> simp [*]
@[simp] theorem takeWriteReply_adcCfg (s : State) : (takeWriteReply s).adcCfg = s.adcCfg := by unfold takeWriteReply; split <;> simp [*]
@[simp] theorem takeWriteReply_adcPolls (s : State) : (takeWriteReply s).adcPolls = s.adcPolls := by unfold takeWriteReply; split <;> simp [*]
@[simp] theorem takeWriteReply_capRate (s : State) : (takeWriteReply s).capRate = s.capRate := by unfold takeWriteReply; split <;> simp [*]
@[simp] theorem takeWriteReply_capDac (s : State) : (takeWriteReply s).capDac = s.capDac := by unfold takeWriteReply; split <;> simp [*]
@[simp] theorem takeWriteReply_capIter (s : State) : (takeWriteReply s).capIter = s.capIter := by unfold takeWriteReply; split <;> simp [*]
@[simp] theorem takeWriteReply_frame (s : State) : (takeWriteReply s).frame = s.frame := by unfold takeWriteReply; split <;> simp [*]
@[simp] theorem takeWriteReply_ser (s : State) : (takeWriteReply s).ser = s.ser := by unfold takeWriteReply; split <;> simp [*]
@[simp] theorem takeWriteReply_srclk (s : State) : (takeWriteReply s).srclk = s.srclk := by unfold takeWriteReply; split <;> simp [*]
@[simp] theorem takeWriteReply_rclk (s : State) : (takeWriteReply s).rclk = s.rclk := by unfold takeWriteReply; split <;> simp [*]
@[simp] theorem takeWriteReply_srIdx (s : State) : (takeWriteReply s).srIdx = s.srIdx := by unfold takeWriteReply; split <;> simp [*]
@[simp] theorem takeWriteReply_seq (s : State) : (takeWriteReply s).seq = s.seq := by unfold takeWriteReply; split <;> simp [*]
@[simp] theorem takeWriteReply_busy (s : State) : (takeWriteReply s).busy = s.busy := by unfold takeWriteReply; split <;> simp [*]
@[simp] theorem takeWriteReply_host (s : State) : (takeWriteReply s).host = s.host := by unfold takeWriteReply; split <;> simp [*]
@[simp] theorem takeWriteReply_outcome (s : State) : (takeWriteReply s).outcome = s.outcome := by unfold takeWriteReply; split <;> simp [*]
@[simp] theorem takeWriteReply_events (s : State) : (takeWriteReply s).events = s.events := by unfold takeWriteReply; split <;> simp [*]
@[simp] theorem takeWriteReply_wrTape (s : State) : (takeWriteReply s).wrTape = s.wrTape.tail := by unfold takeWriteReply; split <;> simp [*]
@[simp] theorem takeWriteReply_rdTape (s : State) : (takeWriteReply s).rdTape = s.rdTape := by unfold takeWriteReply; split <;> simp [*]

/-! ## `takeReadReply` -/

@[simp] theorem takeReadReply_params (s : State) : (takeReadReply s).params = s.params := by unfold takeReadReply; split <;> simp [*]
@[simp] theorem takeReadReply_adcPresent (s : State) : (takeReadReply s).adcPresent = s.adcPresent := by unfold takeReadReply; split <;> simp [*]
@[simp] theorem takeReadReply_adcAddr (s : State) : (takeReadReply s).adcAddr = s.adcAddr := by unfold takeReadReply; split <;> simp [*]
@[simp] theorem takeReadReply_adcCfg (s : State) : (takeReadReply s).adcCfg = s.adcCfg := by unfold takeReadReply; split <;> simp [*]
@[simp] theorem takeReadReply_adcPolls (s : State) : (takeReadReply s).adcPolls = s.adcPolls := by unfold takeReadReply; split <;> simp [*]
@[simp] theorem takeReadReply_capRate (s : State) : (takeReadReply s).capRate = s.capRate := by unfold takeReadReply; split <;> simp [*]
@[simp] theorem takeReadReply_capDac (s : State) : (takeReadReply s).capDac = s.capDac := by unfold takeReadReply; split <;> simp [*]
@[simp] theorem takeReadReply_capIter (s : State) : (takeReadReply s).capIter = s.capIter := by unfold takeReadReply; split <;> simp [*]
@[simp] theorem takeReadReply_frame (s : State) : (takeReadReply s).frame = s.frame := by unfold takeReadReply; split <;> simp [*]
@[simp] theorem takeReadReply_ser (s : State) : (takeReadReply s).ser = s.ser := by unfold takeReadReply; split <;> simp [*]
@[simp] theorem takeReadReply_srclk (s : State) : (takeReadReply s).srclk = s.srclk := by unfold takeReadReply; split <;> simp [*]
@[simp] theorem takeReadReply_rclk (s : State) : (takeReadReply s).rclk = s.rclk := by unfold takeReadReply; split <;> simp [*]
@[simp] theorem takeReadReply_srIdx (s : State) : (takeReadReply s).srIdx = s.srIdx := by unfold takeReadReply; split <;> simp [*]
@[simp] theorem takeReadReply_seq (s : State) : (takeReadReply s).seq = s.seq := by unfold takeReadReply; split <;> simp [*]
@[simp] theorem takeReadReply_busy (s : State) : (takeReadReply s).busy = s.busy := by unfold takeReadReply; split <;> simp [*]
@[simp] theorem takeReadReply_host (s : State) : (takeReadReply s).host = s.host := by unfold takeReadReply; split <;> simp [*]
@[simp] theorem takeReadReply_outcome (s : State) : (takeReadReply s).outcome = s.outcome := by unfold takeReadReply; split <;> simp [*]
@[simp] theorem takeReadReply_events (s : State) : (takeReadReply s).events = s.events := by unfold takeReadReply; split <;> simp [*]
@[simp] theorem takeReadReply_wrTape (s : State) : (takeReadReply s).wrTape = s.wrTape := by unfold takeReadReply; split <;> simp [*]
@[simp] theorem takeReadReply_rdTape (s : State) : (takeReadReply s).rdTape = s.rdTape.tail := by unfold takeReadReply; split <;> simp [*]

/-! ## `afterWrite` -/

@[simp] theorem afterWrite_params (s : State) (dev : Addr7) (reg : Byte) (w : Word) : (afterWrite s dev reg w).params = s.params := by simp [afterWrite]
@[simp] theorem afterWrite_adcPresent (s : State) (dev : Addr7) (reg : Byte) (w : Word) : (afterWrite s dev reg w).adcPresent = s.adcPresent := by simp [afterWrite]
@[simp] theorem afterWrite_adcAddr (s : State) (dev : Addr7) (reg : Byte) (w : Word) : (afterWrite s dev reg w).adcAddr = s.adcAddr := by simp [afterWrite]
@[simp] theorem afterWrite_adcCfg (s : State) (dev : Addr7) (reg : Byte) (w : Word) : (afterWrite s dev reg w).adcCfg = s.adcCfg := by simp [afterWrite]
@[simp] theorem afterWrite_adcPolls (s : State) (dev : Addr7) (reg : Byte) (w : Word) : (afterWrite s dev reg w).adcPolls = s.adcPolls := by simp [afterWrite]
@[simp] theorem afterWrite_capRate (s : State) (dev : Addr7) (reg : Byte) (w : Word) : (afterWrite s dev reg w).capRate = s.capRate := by simp [afterWrite]
@[simp] theorem afterWrite_capDac (s : State) (dev : Addr7) (reg : Byte) (w : Word) : (afterWrite s dev reg w).capDac = s.capDac := by simp [afterWrite]
@[simp] theorem afterWrite_capIter (s : State) (dev : Addr7) (reg : Byte) (w : Word) : (afterWrite s dev reg w).capIter = s.capIter := by simp [afterWrite]
@[simp] theorem afterWrite_frame (s : State) (dev : Addr7) (reg : Byte) (w : Word) : (afterWrite s dev reg w).frame = s.frame := by simp [afterWrite]
@[simp] theorem afterWrite_ser (s : State) (dev : Addr7) (reg : Byte) (w : Word) : (afterWrite s dev reg w).ser = s.ser := by simp [afterWrite]
@[simp] theorem afterWrite_srclk (s : State) (dev : Addr7) (reg : Byte) (w : Word) : (afterWrite s dev reg w).srclk = s.srclk := by simp [afterWrite]
@[simp] theorem afterWrite_rclk (s : State) (dev : Addr7) (reg : Byte) (w : Word) : (afterWrite s dev reg w).rclk = s.rclk := by simp [afterWrite]
@[simp] theorem afterWrite_srIdx (s : State) (dev : Addr7) (reg : Byte) (w : Word) : (afterWrite s dev reg w).srIdx = s.srIdx := by simp [afterWrite]
@[simp] theorem afterWrite_seq (s : State) (dev : Addr7) (reg : Byte) (w : Word) : (afterWrite s dev reg w).seq = s.seq := by simp [afterWrite]
@[simp] theorem afterWrite_busy (s : State) (dev : Addr7) (reg : Byte) (w : Word) : (afterWrite s dev reg w).busy = s.busy := by simp [afterWrite]
@[simp] theorem afterWrite_host (s : State) (dev : Addr7) (reg : Byte) (w : Word) : (afterWrite s dev reg w).host = s.host := by simp [afterWrite]
@[simp] theorem afterWrite_outcome (s : State) (dev : Addr7) (reg : Byte) (w : Word) : (afterWrite s dev reg w).outcome = s.outcome := by simp [afterWrite]
@[simp] theorem afterWrite_events (s : State) (dev : Addr7) (reg : Byte) (w : Word) : (afterWrite s dev reg w).events = s.events ++ [.busWrite dev reg (hiByte w) (loByte w) (writeReply s dev reg w)] := by simp [afterWrite]
@[simp] theorem afterWrite_wrTape (s : State) (dev : Addr7) (reg : Byte) (w : Word) : (afterWrite s dev reg w).wrTape = s.wrTape.tail := by simp [afterWrite]
@[simp] theorem afterWrite_rdTape (s : State) (dev : Addr7) (reg : Byte) (w : Word) : (afterWrite s dev reg w).rdTape = s.rdTape := by simp [afterWrite]

/-! ## `afterRead` -/

@[simp] theorem afterRead_params (s : State) (dev : Addr7) (reg : Byte) : (afterRead s dev reg).params = s.params := by simp [afterRead]
@[simp] theorem afterRead_adcPresent (s : State) (dev : Addr7) (reg : Byte) : (afterRead s dev reg).adcPresent = s.adcPresent := by simp [afterRead]
@[simp] theorem afterRead_adcAddr (s : State) (dev : Addr7) (reg : Byte) : (afterRead s dev reg).adcAddr = s.adcAddr := by simp [afterRead]
@[simp] theorem afterRead_adcCfg (s : State) (dev : Addr7) (reg : Byte) : (afterRead s dev reg).adcCfg = s.adcCfg := by simp [afterRead]
@[simp] theorem afterRead_adcPolls (s : State) (dev : Addr7) (reg : Byte) : (afterRead s dev reg).adcPolls = s.adcPolls := by simp [afterRead]
@[simp] theorem afterRead_capRate (s : State) (dev : Addr7) (reg : Byte) : (afterRead s dev reg).capRate = s.capRate := by simp [afterRead]
@[simp] theorem afterRead_capDac (s : State) (dev : Addr7) (reg : Byte) : (afterRead s dev reg).capDac = s.capDac := by simp [afterRead]
@[simp] theorem afterRead_capIter (s : State) (dev : Addr7) (reg : Byte) : (afterRead s dev reg).capIter = s.capIter := by simp [afterRead]
@[simp] theorem afterRead_frame (s : State) (dev : Addr7) (reg : Byte) : (afterRead s dev reg).frame = s.frame := by simp [afterRead]
@[simp] theorem afterRead_ser (s : State) (dev : Addr7) (reg : Byte) : (afterRead s dev reg).ser = s.ser := by simp [afterRead]
@[simp] theorem afterRead_srclk (s : State) (dev : Addr7) (reg : Byte) : (afterRead s dev reg).srclk = s.srclk := by simp [afterRead]
@[simp] theorem afterRead_rclk (s : State) (dev : Addr7) (reg : Byte) : (afterRead s dev reg).rclk = s.rclk := by simp [afterRead]
@[simp] theorem afterRead_srIdx (s : State) (dev : Addr7) (reg : Byte) : (afterRead s dev reg).srIdx = s.srIdx := by simp [afterRead]
@[simp] theorem afterRead_seq (s : State) (dev : Addr7) (reg : Byte) : (afterRead s dev reg).seq = s.seq := by simp [afterRead]
@[simp] theorem afterRead_busy (s : State) (dev : Addr7) (reg : Byte) : (afterRead s dev reg).busy = s.busy := by simp [afterRead]
@[simp] theorem afterRead_host (s : State) (dev : Addr7) (reg : Byte) : (afterRead s dev reg).host = s.host := by simp [afterRead]
@[simp] theorem afterRead_outcome (s : State) (dev : Addr7) (reg : Byte) : (afterRead s dev reg).outcome = s.outcome := by simp [afterRead]
@[simp] theorem afterRead_events (s : State) (dev : Addr7) (reg : Byte) : (afterRead s dev reg).events = s.events ++ [.busRead dev reg (readReply s dev reg)] := by simp [afterRead]
@[simp] theorem afterRead_wrTape (s : State) (dev : Addr7) (reg : Byte) : (afterRead s dev reg).wrTape = s.wrTape := by simp [afterRead]
@[simp] theorem afterRead_rdTape (s : State) (dev : Addr7) (reg : Byte) : (afterRead s dev reg).rdTape = s.rdTape.tail := by simp [afterRead]

/-! ## `acceptCommand` -/

@[simp] theorem acceptCommand_params (s : State) (rest : List Command) : (acceptCommand s rest).params = s.params := rfl
@[simp] theorem acceptCommand_adcPresent (s : State) (rest : List Command) : (acceptCommand s rest).adcPresent = s.adcPresent := rfl
@[simp] theorem acceptCommand_adcAddr (s : State) (rest : List Command) : (acceptCommand s rest).adcAddr = s.adcAddr := rfl
@[simp] theorem acceptCommand_adcCfg (s : State) (rest : List Command) : (acceptCommand s rest).adcCfg = s.adcCfg := rfl
@[simp] theorem acceptCommand_adcPolls (s : State) (rest : List Command) : (acceptCommand s rest).adcPolls = s.adcPolls := rfl
@[simp] theorem acceptCommand_capRate (s : State) (rest : List Command) : (acceptCommand s rest).capRate = s.capRate := rfl
@[simp] theorem acceptCommand_capDac (s : State) (rest : List Command) : (acceptCommand s rest).capDac = s.capDac := rfl
@[simp] theorem acceptCommand_capIter (s : State) (rest : List Command) : (acceptCommand s rest).capIter = s.capIter := rfl
@[simp] theorem acceptCommand_frame (s : State) (rest : List Command) : (acceptCommand s rest).frame = s.frame := rfl
@[simp] theorem acceptCommand_ser (s : State) (rest : List Command) : (acceptCommand s rest).ser = s.ser := rfl
@[simp] theorem acceptCommand_srclk (s : State) (rest : List Command) : (acceptCommand s rest).srclk = s.srclk := rfl
@[simp] theorem acceptCommand_rclk (s : State) (rest : List Command) : (acceptCommand s rest).rclk = s.rclk := rfl
@[simp] theorem acceptCommand_srIdx (s : State) (rest : List Command) : (acceptCommand s rest).srIdx = s.srIdx := rfl
@[simp] theorem acceptCommand_seq (s : State) (rest : List Command) : (acceptCommand s rest).seq = s.seq := rfl
@[simp] theorem acceptCommand_busy (s : State) (rest : List Command) : (acceptCommand s rest).busy = s.busy := rfl
@[simp] theorem acceptCommand_host (s : State) (rest : List Command) : (acceptCommand s rest).host = rest := rfl
@[simp] theorem acceptCommand_outcome (s : State) (rest : List Command) : (acceptCommand s rest).outcome = none := rfl
@[simp] theorem acceptCommand_events (s : State) (rest : List Command) : (acceptCommand s rest).events = s.events := rfl
@[simp] theorem acceptCommand_wrTape (s : State) (rest : List Command) : (acceptCommand s rest).wrTape = s.wrTape := rfl
@[simp] theorem acceptCommand_rdTape (s : State) (rest : List Command) : (acceptCommand s rest).rdTape = s.rdTape := rfl
@[simp] theorem acceptCommand_oracle (s : State) (rest : List Command) : (acceptCommand s rest).oracle = s.oracle := rfl

/-! ## `State.withFetchWord` -/

@[simp] theorem withFetchWord_params (s : State) (nbits w : Nat) : (s.withFetchWord nbits w).params = s.params := rfl
@[simp] theorem withFetchWord_adcPresent (s : State) (nbits w : Nat) : (s.withFetchWord nbits w).adcPresent = s.adcPresent := rfl
@[simp] theorem withFetchWord_adcAddr (s : State) (nbits w : Nat) : (s.withFetchWord nbits w).adcAddr = s.adcAddr := rfl
@[simp] theorem withFetchWord_adcCfg (s : State) (nbits w : Nat) : (s.withFetchWord nbits w).adcCfg = s.adcCfg := rfl
@[simp] theorem withFetchWord_adcPolls (s : State) (nbits w : Nat) : (s.withFetchWord nbits w).adcPolls = none := rfl
@[simp] theorem withFetchWord_capRate (s : State) (nbits w : Nat) : (s.withFetchWord nbits w).capRate = s.capRate := rfl
@[simp] theorem withFetchWord_capDac (s : State) (nbits w : Nat) : (s.withFetchWord nbits w).capDac = none := rfl
@[simp] theorem withFetchWord_capIter (s : State) (nbits w : Nat) : (s.withFetchWord nbits w).capIter = none := rfl
@[simp] theorem withFetchWord_frame (s : State) (nbits w : Nat) : (s.withFetchWord nbits w).frame = s.frame := rfl
@[simp] theorem withFetchWord_ser (s : State) (nbits w : Nat) : (s.withFetchWord nbits w).ser = s.ser := rfl
@[simp] theorem withFetchWord_srclk (s : State) (nbits w : Nat) : (s.withFetchWord nbits w).srclk = s.srclk := rfl
@[simp] theorem withFetchWord_rclk (s : State) (nbits w : Nat) : (s.withFetchWord nbits w).rclk = s.rclk := rfl
@[simp] theorem withFetchWord_srIdx (s : State) (nbits w : Nat) : (s.withFetchWord nbits w).srIdx = none := rfl
@[simp] theorem withFetchWord_seq (s : State) (nbits w : Nat) : (s.withFetchWord nbits w).seq = none := rfl
@[simp] theorem withFetchWord_busy (s : State) (nbits w : Nat) : (s.withFetchWord nbits w).busy = false := rfl
@[simp] theorem withFetchWord_host (s : State) (nbits w : Nat) : (s.withFetchWord nbits w).host = tableCommand nbits w :: s.host := rfl
@[simp] theorem withFetchWord_outcome (s : State) (nbits w : Nat) : (s.withFetchWord nbits w).outcome = s.outcome := rfl
@[simp] theorem withFetchWord_events (s : State) (nbits w : Nat) : (s.withFetchWord nbits w).events = s.events := rfl
@[simp] theorem withFetchWord_wrTape (s : State) (nbits w : Nat) : (s.withFetchWord nbits w).wrTape = s.wrTape := rfl
@[simp] theorem withFetchWord_rdTape (s : State) (nbits w : Nat) : (s.withFetchWord nbits w).rdTape = s.rdTape := rfl
@[simp] theorem withFetchWord_oracle (s : State) (nbits w : Nat) : (s.withFetchWord nbits w).oracle = s.oracle := rfl

end Sys2Proof.Machine
end

