-- ==== Sys2Proof/Laws/Ops.lean ====
section
/-! SUPPORT. For each shared operation one lemma that says what it can do, which proofs cite instead of unfolding it. -/

namespace Sys2Proof.Machine

/-! ## How an operation ends, from an idle state -/

/-- From an idle state the end of an operation changes nothing but the outcome (60_exceptions.md R282). -/
theorem finish_of_idle {s : State} (h : s.Idle) (o : OpOutcome) : finish s o = { s with outcome := some o } := by
  obtain ⟨h1, h2, h3, h4, h5, h6⟩ := h
  cases s
  simp_all [finish]

/-- From an idle state an error changes nothing but the outcome (60_exceptions.md R282). -/
theorem raise_of_idle {s : State} (h : s.Idle) (o : OpOutcome) : raise s o = { s with outcome := some o } :=
  finish_of_idle h o

/-- From an idle state a return changes nothing but the outcome. -/
theorem returnOk_of_idle {s : State} (h : s.Idle) (v : Value) :
    returnOk s v = { s with outcome := some (.ok v) } := finish_of_idle h _

/-- Every operation that is over leaves the block idle (10_state.md R38). -/
theorem idle_finish (s : State) (o : OpOutcome) : (finish s o).Idle := ⟨rfl, rfl, rfl, rfl, rfl, rfl⟩

/-! ## The sequencer's label -/

/-- A label moved to is overwritten by the next one (10_state.md R38). -/
@[simp] theorem goTo_goTo (s : State) (q r : Seq) : goTo (goTo s q) r = goTo s r := rfl

/-- The end of an operation forgets the label it had reached (10_state.md R38). -/
@[simp] theorem finish_goTo (s : State) (q : Seq) (o : OpOutcome) : finish (goTo s q) o = finish s o := rfl

/-- An error forgets the label the operation had reached (10_state.md R38). -/
@[simp] theorem raise_goTo (s : State) (q : Seq) (o : OpOutcome) : raise (goTo s q) o = raise s o := rfl

/-- A return forgets the label the operation had reached (10_state.md R38). -/
@[simp] theorem returnOk_goTo (s : State) (q : Seq) (v : Value) : returnOk (goTo s q) v = returnOk s v := rfl

/-- The steps of the search that are passed leave the label of the last of them (41_cap.md R194). -/
theorem passSteps_eq_goTo (ch : Nat) {n : Nat} (h : 4 ≤ n) (s : State) : passSteps ch n s = goTo s (.capRead ch n) := by
  obtain ⟨m, rfl⟩ := Nat.exists_eq_add_of_le' h
  have : m + 4 - 3 = m + 1 := by omega
  rw [passSteps, this, List.range'_1_concat, List.foldl_append]
  suffices ∀ l : List Nat, goTo (l.foldl (fun s k => goTo s (.capRead ch k)) s) (.capRead ch (4 + m)) =
      goTo s (.capRead ch (m + 4)) from this _
  intro l
  rw [Nat.add_comm]
  induction l generalizing s with
  | nil => rfl
  | cons _ _ ih => exact ih _

/-- Every decision of the search is carried out at one of the steps 4 to 8 (41_cap.md R194). -/
theorem decisionStep_bounds (raw : Int) (d : SearchStep) : 4 ≤ decisionStep raw d ∧ decisionStep raw d ≤ 8 := by
  unfold decisionStep
  repeat' split
  all_goals decide

/-- An event and a label commute. -/
theorem emit_goTo (s : State) (q : Seq) (e : Event) : emit (goTo s q) e = goTo (emit s e) q := rfl

/-- A pin write and a label commute. -/
theorem pin_goTo (line : Line) (b : Bool) (s : State) (q : Seq) :
    pin line b (goTo s q) = goTo (pin line b s) q := by
  cases line <;> rfl

/-- A delay and a label commute. -/
theorem delay_goTo (u : TimeUnit) (n : Nat) (s : State) (q : Seq) : delay u n (goTo s q) = goTo (delay u n s) q := rfl

/-- The bus port's answer to a write does not look at the label. -/
@[simp] theorem writeReply_goTo (s : State) (q : Seq) (dev : Addr7) (reg : Byte) (w : Word) :
    writeReply (goTo s q) dev reg w = writeReply s dev reg w := rfl

/-- The bus port's answer to a read does not look at the label. -/
@[simp] theorem readReply_goTo (s : State) (q : Seq) (dev : Addr7) (reg : Byte) :
    readReply (goTo s q) dev reg = readReply s dev reg := rfl

/-- A write transaction and a label commute. -/
theorem afterWrite_goTo (s : State) (q : Seq) (dev : Addr7) (reg : Byte) (w : Word) :
    afterWrite (goTo s q) dev reg w = goTo (afterWrite s dev reg w) q := by
  simp only [afterWrite, writeReply_goTo]
  unfold takeWriteReply
  simp only [goTo_wrTape]
  split <;> rfl

/-- A read transaction and a label commute. -/
theorem afterRead_goTo (s : State) (q : Seq) (dev : Addr7) (reg : Byte) :
    afterRead (goTo s q) dev reg = goTo (afterRead s dev reg) q := by
  simp only [afterRead, readReply_goTo]
  unfold takeReadReply
  simp only [goTo_rdTape]
  split <;> rfl

/-! ## An idle state -/

/-- A write transaction leaves an idle state idle. -/
theorem idle_afterWrite {s : State} (h : s.Idle) (dev : Addr7) (reg : Byte) (w : Word) :
    (afterWrite s dev reg w).Idle := by
  obtain ⟨h1, h2, h3, h4, h5, h6⟩ := h
  refine ⟨?_, ?_, ?_, ?_, ?_, ?_⟩ <;> simp [*]

/-- A read transaction leaves an idle state idle. -/
theorem idle_afterRead {s : State} (h : s.Idle) (dev : Addr7) (reg : Byte) : (afterRead s dev reg).Idle := by
  obtain ⟨h1, h2, h3, h4, h5, h6⟩ := h
  refine ⟨?_, ?_, ?_, ?_, ?_, ?_⟩ <;> simp [*]

/-! ## The bus port -/

/-- The tape's next answer is the answer to the write. -/
theorem writeReply_of_tape {s : State} {r : WriteReply} {rest : List WriteReply} (h : s.wrTape = r :: rest)
    (dev : Addr7) (reg : Byte) (w : Word) : writeReply s dev reg w = r := by
  simp [writeReply, h]

/-- The tape's next answer is the answer to the read. -/
theorem readReply_of_tape {s : State} {r : ReadReply} {rest : List ReadReply} (h : s.rdTape = r :: rest)
    (dev : Addr7) (reg : Byte) : readReply s dev reg = r := by
  simp [readReply, h]

/-- A taped answer draws no free one. -/
theorem afterWrite_oracle_of_tape {s : State} {r : WriteReply} {rest : List WriteReply}
    (h : s.wrTape = r :: rest) (dev : Addr7) (reg : Byte) (w : Word) :
    (afterWrite s dev reg w).oracle = s.oracle := by
  simp [afterWrite, takeWriteReply, h]

/-- A taped answer draws no free one. -/
theorem afterRead_oracle_of_tape {s : State} {r : ReadReply} {rest : List ReadReply}
    (h : s.rdTape = r :: rest) (dev : Addr7) (reg : Byte) : (afterRead s dev reg).oracle = s.oracle := by
  simp [afterRead, takeReadReply, h]

/-- A write that the bus port answers with `Ok` goes on (20_memory.md R55). -/
theorem memWrite_of_ok {s : State} {dev : Addr7} {reg : Byte} {w : Word} {k : State → State}
    (h : writeReply s dev reg w = .ok) : memWrite s dev reg w k = k (afterWrite s dev reg w) := by
  simp [memWrite, h]

/-- A write that the bus port answers with an error ends the operation (20_memory.md R57). -/
theorem memWrite_of_err {s : State} {dev : Addr7} {reg : Byte} {w : Word} {k : State → State} {e : Nat}
    (h : writeReply s dev reg w = .err e) :
    memWrite s dev reg w k = raise (afterWrite s dev reg w) (.busError e) := by
  simp [memWrite, h]

/-- All a write transaction can do: go on, or end the operation with the error (20_memory.md R55, R57). -/
theorem memWrite_cases (s : State) (dev : Addr7) (reg : Byte) (w : Word) (k : State → State) :
    (writeReply s dev reg w = .ok ∧ memWrite s dev reg w k = k (afterWrite s dev reg w)) ∨
    ∃ e, writeReply s dev reg w = .err e ∧
      memWrite s dev reg w k = raise (afterWrite s dev reg w) (.busError e) := by
  cases h : writeReply s dev reg w with
  | ok => exact .inl ⟨rfl, memWrite_of_ok h⟩
  | err e => exact .inr ⟨e, rfl, memWrite_of_err h⟩

/-- A read that the bus port answers goes on with the word, the first byte the more significant (20_memory.md R52,
R56). -/
theorem memRead_of_ok {s : State} {dev : Addr7} {reg : Byte} {k : Word → State → State} {b0 b1 : Byte}
    (h : readReply s dev reg = .ok b0 b1) :
    memRead s dev reg k = k (joinBytes b0 b1) (afterRead s dev reg) := by
  simp [memRead, h]

/-- A read that the bus port answers with an error ends the operation (20_memory.md R57). -/
theorem memRead_of_err {s : State} {dev : Addr7} {reg : Byte} {k : Word → State → State} {e : Nat}
    (h : readReply s dev reg = .err e) :
    memRead s dev reg k = raise (afterRead s dev reg) (.busError e) := by
  simp [memRead, h]

/-- All a read transaction can do: go on with a word, or end the operation with the error (20_memory.md R56, R57). -/
theorem memRead_cases (s : State) (dev : Addr7) (reg : Byte) (k : Word → State → State) :
    (∃ b0 b1, readReply s dev reg = .ok b0 b1 ∧
      memRead s dev reg k = k (joinBytes b0 b1) (afterRead s dev reg)) ∨
    ∃ e, readReply s dev reg = .err e ∧
      memRead s dev reg k = raise (afterRead s dev reg) (.busError e) := by
  cases h : readReply s dev reg with
  | ok b0 b1 => exact .inl ⟨b0, b1, rfl, memRead_of_ok h⟩
  | err e => exact .inr ⟨e, rfl, memRead_of_err h⟩

/-! ## The operand checks -/

/-- All the index check can do (42_shift.md R221). -/
theorem checkIndex_cases (i : Nat) (s : State) (k : Fin 16 → State → State) :
    (∃ h : i < 16, checkIndex i s k = k ⟨i, h⟩ s) ∨
    (16 ≤ i ∧ checkIndex i s k = raise s (.indexOutOfRange i)) := by
  by_cases h : i < 16
  · exact .inl ⟨h, by simp [checkIndex, h]⟩
  · exact .inr ⟨by omega, by simp [checkIndex, h]⟩

/-- An ADC bus operation answers a next state exactly when the unit is constructed, and then it is the run's
(40_adc.md R130). -/
theorem needAdc_eq_next {s t u : State} : needAdc s u = .next t ↔ s.adcPresent = true ∧ u = t := by
  by_cases h : s.adcPresent <;> simp [needAdc, h]

/-- When the channel check answers a next state (41_cap.md R188, R194). -/
theorem needChannel_eq_next {ch : Nat} {r : Result} {t : State} :
    needChannel ch r = .next t ↔ ch ≤ 3 ∧ r = .next t := by
  by_cases h : ch > 3
  · simp [needChannel, h]
  · simp [needChannel, h]; omega

/-- When the calibration check answers a next state (41_cap.md R188, R200, R201). -/
theorem needCapdac_eq_next {p : Params} {capdac : Nat} {r : Result} {t : State} :
    needCapdac p capdac r = .next t ↔ capdac ≤ p.capDacMax ∧ r = .next t := by
  by_cases h : capdac > p.capDacMax
  · simp [needCapdac, h]
  · simp [needCapdac, h]; omega

/-- When the frequency check answers a next state (43_pwm.md R252). -/
theorem needFrequency_eq_next {f : BitVec 32} {r : Result} {t : State} :
    needFrequency f r = .next t ↔ f ≠ 0 ∧ r = .next t := by
  by_cases h : f = 0#32 <;> simp [needFrequency, h]

/-- When the quotient check answers a next state (43_pwm.md R253). -/
theorem needQuotient_eq_next {p : Params} {f : BitVec 32} {r : Result} {t : State} :
    needQuotient p f r = .next t ↔ pwmQuotient p f ≠ 0 ∧ r = .next t := by
  by_cases h : pwmQuotient p f = 0 <;> simp [needQuotient, h]

/-- When the duty check answers a next state (43_pwm.md R254). -/
theorem needDuty_eq_next {duty : Rat} {r : Result} {t : State} :
    needDuty duty r = .next t ↔ (0 ≤ duty ∧ duty ≤ 100) ∧ r = .next t := by
  by_cases h : duty < 0 ∨ duty > 100
  · simp only [needDuty, if_pos h]
    constructor
    · intro h'; cases h'
    · rintro ⟨⟨h0, h1⟩, -⟩
      rcases h with h | h
      · exact absurd h (not_lt.mpr h0)
      · exact absurd h (not_lt.mpr h1)
  · simp only [needDuty, if_neg h]
    push Not at h
    simp [h.1, h.2]

/-- When the check of a top answers a next state (43_pwm.md R250 b, R251). -/
theorem needTop_eq_next {p : Params} {top : Nat} {r : Result} {t : State} :
    needTop p top r = .next t ↔ top < p.refClkHz ∧ r = .next t := by
  by_cases h : top < p.refClkHz <;> simp [needTop, h]

/-- The top of a frequency whose quotient is not 0 lies in its domain, so PWM.SET never meets the check of PWM.CMP
(43_pwm.md R251, R253, R255). -/
theorem pwmTopOf_lt_refClkHz {p : Params} {f : BitVec 32} (phaseCorrect : Bool) (h : pwmQuotient p f ≠ 0) :
    pwmTopOf p f phaseCorrect < p.refClkHz := by
  have hq : pwmQuotient p f ≤ p.refClkHz := Nat.div_le_self _ _
  cases phaseCorrect <;> simp [pwmTopOf] <;> omega

/-! ## The step -/

/-- All a step that answers a next state can have done: gone on, stayed, or run a command. -/
theorem step_cases {s t : State} (h : step s = .next t) :
    (s.busy = true ∧ resume s = .next t) ∨
    (s.busy = false ∧ s.host = [] ∧ t = s) ∨
    ∃ c rest i, s.busy = false ∧ s.host = c :: rest ∧ decode s.params c = .ok i ∧
      exec i (acceptCommand s rest) = .next t := by
  unfold step at h
  split at h
  · next hb => exact .inl ⟨hb, h⟩
  · next hb =>
    have hb' : s.busy = false := by simpa using hb
    split at h
    · next hh => exact .inr (.inl ⟨hb', hh, by cases h; rfl⟩)
    · next c rest hh =>
      split at h
      · next i hd => exact .inr (.inr ⟨c, rest, i, hb', hh, hd, h⟩)
      · cases h

/-- All the going on of a running operation can do when it answers a next state: one more poll, or one more turn of
the search (10_state.md R38). -/
theorem resume_cases {s t : State} (h : resume s = .next t) :
    (∃ polls, s.seq = some (.adcRdsingle 4) ∧ s.adcPolls = some polls ∧ t = adcPoll polls s) ∨
    ∃ ch dac iter, s.seq = some (.capRead ch 2) ∧ s.capDac = some dac ∧ s.capIter = some iter ∧ ch ≤ 3 ∧
      dac.toNat ≤ s.params.capDacMax ∧ t = capSearch ch dac.toNat iter s := by
  unfold resume at h
  split at h
  · next hq =>
    split at h
    · next polls hp => exact .inl ⟨polls, hq, hp, by cases h; rfl⟩
    · cases h
  · next ch hq =>
    split at h
    · next dac iter hd hi =>
      split at h
      · next hc => exact .inr ⟨ch, dac, iter, hq, hd, hi, hc.1, hc.2, by cases h; rfl⟩
      · cases h
    · cases h
  · cases h

end Sys2Proof.Machine
end

