-- ==== Sys2Proof/Laws/PerInstr.lean ====
section
/-! SUPPORT. The family `OpcodeRow`: the command an operation encodes to carries a selector of the operation map
(spec/30_encoding.md R110), and selector and operands select that operation again, whatever the parameters. -/

namespace Sys2Proof.Laws.OpcodeRow

/-- If the instruction is one of the command port's operations, its selector is in the operation map and decodes,
with its operands, to the instruction. (A register-word row encodes to no selector.) -/
def Statement (i : Instr) : Prop :=
  ∀ (p : Params) (op : Byte) (args : List Operand), encode p i = .op op args →
    isOperation op = true ∧ decodeOperation op.toNat args = some i

end Sys2Proof.Laws.OpcodeRow

namespace Sys2Proof.Laws

theorem OpcodeRow.adcNew (addr : Addr7) : OpcodeRow.Statement (.adcNew addr) := by
  intro p op args h; cases h; exact ⟨rfl, rfl⟩

theorem OpcodeRow.adcEnc (cfg : AdcCfg) : OpcodeRow.Statement (.adcEnc cfg) := by
  intro p op args h; cases h; exact ⟨rfl, rfl⟩

theorem OpcodeRow.adcDec (w : Word) : OpcodeRow.Statement (.adcDec w) := by
  intro p op args h; cases h; exact ⟨rfl, rfl⟩

theorem OpcodeRow.adcWith (cfg : AdcCfg) (field : AdcField) (value : AdcFieldValue) : OpcodeRow.Statement (.adcWith cfg field value) := by
  intro p op args h; cases h; exact ⟨rfl, rfl⟩

theorem OpcodeRow.adcWrcfg (cfg : Option AdcCfg) : OpcodeRow.Statement (.adcWrcfg cfg) := by
  intro p op args h; cases cfg <;> (simp only [encode, optOperand] at h; cases h; exact ⟨rfl, rfl⟩)

theorem OpcodeRow.adcRdcfg : OpcodeRow.Statement .adcRdcfg := by
  intro p op args h; cases h; exact ⟨rfl, rfl⟩

theorem OpcodeRow.adcRdsingle (mux : Option Mux) : OpcodeRow.Statement (.adcRdsingle mux) := by
  intro p op args h; cases mux <;> (simp only [encode, optOperand] at h; cases h; exact ⟨rfl, rfl⟩)

theorem OpcodeRow.adcRdv : OpcodeRow.Statement .adcRdv := by
  intro p op args h; cases h; exact ⟨rfl, rfl⟩

theorem OpcodeRow.adcRdy : OpcodeRow.Statement .adcRdy := by
  intro p op args h; cases h; exact ⟨rfl, rfl⟩

theorem OpcodeRow.adcScale (raw : BitVec 16) (pga : Pga) : OpcodeRow.Statement (.adcScale raw pga) := by
  intro p op args h; cases h; exact ⟨rfl, rfl⟩

theorem OpcodeRow.capEncm (meas : MeasCfg) : OpcodeRow.Statement (.capEncm meas) := by
  intro p op args h; cases h; exact ⟨rfl, rfl⟩

theorem OpcodeRow.capDecm (w : Word) : OpcodeRow.Statement (.capDecm w) := by
  intro p op args h; cases h; exact ⟨rfl, rfl⟩

theorem OpcodeRow.capEnct (trig : TrigCfg) : OpcodeRow.Statement (.capEnct trig) := by
  intro p op args h; cases h; exact ⟨rfl, rfl⟩

theorem OpcodeRow.capDect (w : Word) : OpcodeRow.Statement (.capDect w) := by
  intro p op args h; cases h; exact ⟨rfl, rfl⟩

theorem OpcodeRow.capAsm (m l : Word) : OpcodeRow.Statement (.capAsm m l) := by
  intro p op args h; cases h; exact ⟨rfl, rfl⟩

theorem OpcodeRow.capSetrate (rate : Rate) : OpcodeRow.Statement (.capSetrate rate) := by
  intro p op args h; cases h; exact ⟨rfl, rfl⟩

theorem OpcodeRow.capMeas (ch capdac : Nat) : OpcodeRow.Statement (.capMeas ch capdac) := by
  intro p op args h; cases h; exact ⟨rfl, rfl⟩

theorem OpcodeRow.capRead (ch : Nat) : OpcodeRow.Statement (.capRead ch) := by
  intro p op args h; cases h; exact ⟨rfl, rfl⟩

theorem OpcodeRow.capPf (raw : Word24) (capdac : Nat) : OpcodeRow.Statement (.capPf raw capdac) := by
  intro p op args h; cases h; exact ⟨rfl, rfl⟩

theorem OpcodeRow.capAf (raw : Word24) (capdac : Nat) : OpcodeRow.Statement (.capAf raw capdac) := by
  intro p op args h; cases h; exact ⟨rfl, rfl⟩

theorem OpcodeRow.srSet (idx : Nat) : OpcodeRow.Statement (.srSet idx) := by
  intro p op args h; cases h; exact ⟨rfl, rfl⟩

theorem OpcodeRow.srClr (idx : Nat) : OpcodeRow.Statement (.srClr idx) := by
  intro p op args h; cases h; exact ⟨rfl, rfl⟩

theorem OpcodeRow.srGet (idx : Nat) : OpcodeRow.Statement (.srGet idx) := by
  intro p op args h; cases h; exact ⟨rfl, rfl⟩

theorem OpcodeRow.srPack : OpcodeRow.Statement .srPack := by
  intro p op args h; cases h; exact ⟨rfl, rfl⟩

theorem OpcodeRow.srTx (w : Word) : OpcodeRow.Statement (.srTx w) := by
  intro p op args h; cases h; exact ⟨rfl, rfl⟩

theorem OpcodeRow.srFlush : OpcodeRow.Statement .srFlush := by
  intro p op args h; cases h; exact ⟨rfl, rfl⟩

theorem OpcodeRow.srApplyclr (idx : Nat) : OpcodeRow.Statement (.srApplyclr idx) := by
  intro p op args h; cases h; exact ⟨rfl, rfl⟩

theorem OpcodeRow.srClrapply (idx : Nat) : OpcodeRow.Statement (.srClrapply idx) := by
  intro p op args h; cases h; exact ⟨rfl, rfl⟩

theorem OpcodeRow.pwmDiv (f : BitVec 32) : OpcodeRow.Statement (.pwmDiv f) := by
  intro p op args h; cases h; exact ⟨rfl, rfl⟩

theorem OpcodeRow.pwmTop (f : BitVec 32) (phaseCorrect : Bool) : OpcodeRow.Statement (.pwmTop f phaseCorrect) := by
  intro p op args h; cases h; exact ⟨rfl, rfl⟩

theorem OpcodeRow.pwmCmp (duty : Rat) (top : Nat) : OpcodeRow.Statement (.pwmCmp duty top) := by
  intro p op args h; cases h; exact ⟨rfl, rfl⟩

theorem OpcodeRow.pwmSet (f : BitVec 32) (dutyA dutyB : Rat) (phaseCorrect : Bool) : OpcodeRow.Statement (.pwmSet f dutyA dutyB phaseCorrect) := by
  intro p op args h; cases h; exact ⟨rfl, rfl⟩

theorem OpcodeRow.wordAdcConfig (cfg : AdcCfg) (status : AdcStatus) : OpcodeRow.Statement (.wordAdcConfig cfg status) := by
  intro p op args h; simp [encode] at h

theorem OpcodeRow.wordAdcConv (raw : BitVec 16) : OpcodeRow.Statement (.wordAdcConv raw) := by
  intro p op args h; simp [encode] at h

theorem OpcodeRow.wordCapConf (meas : MeasCfg) : OpcodeRow.Statement (.wordCapConf meas) := by
  intro p op args h; simp [encode] at h

theorem OpcodeRow.wordCapTrig (trig : TrigCfg) : OpcodeRow.Statement (.wordCapTrig trig) := by
  intro p op args h; simp [encode] at h

theorem OpcodeRow.wordCapMsb (high : Word) : OpcodeRow.Statement (.wordCapMsb high) := by
  intro p op args h; simp [encode] at h

theorem OpcodeRow.wordCapLsb (low : Byte) : OpcodeRow.Statement (.wordCapLsb low) := by
  intro p op args h; simp [encode] at h

theorem OpcodeRow.wordSrFrame (frame : Frame) : OpcodeRow.Statement (.wordSrFrame frame) := by
  intro p op args h; simp [encode] at h

end Sys2Proof.Laws
end

