-- ==== Sys2Proof/Tests/Slice0.lean ====
section
/-! SUPPORT. The model's own tests: ill-formed terms are refused, words written out from spec/30_encoding.md decode to
their operations, single steps give the results of spec/95_test_vectors.md, and every statement's hypotheses are met by
a state written here (the theorems named witness). -/

namespace Sys2Proof.Tests

set_option Elab.async false

open Sys2Proof Sys2Proof.Machine

/-! ## Helpers -/

/-- The state after an operation that answers a next state. -/
def after (i : Instr) (s : State) : State :=
  match exec i s with
  | .next t => t
  | _ => s

/-- The outcome of an operation that answers a next state. -/
def outcomeOf (i : Instr) (s : State) : Option OpOutcome :=
  match exec i s with
  | .next t => t.outcome
  | _ => none

/-- The refusal of a step that is refused. -/
def refusalOf? : Result → Option Refusal
  | .refused r => some r
  | _ => none

/-- The state after a step that answers a next state. -/
def stateOf : Result → Option State
  | .next t => some t
  | _ => none

/-- The step answers a next state. -/
def goesOn (r : Result) : Bool := (stateOf r).isSome

/-- The default configuration, word 0x0583 (95_test_vectors.md V-A1). -/
def cfg0583 : AdcCfg := defaultAdcDefaultCfg

/-- After reset and ADC.NEW 0x48. -/
def adcUp : State := { State.reset with adcPresent := true, adcAddr := 0x48, adcCfg := cfg0583 }

/-- A state in which the bus port's answers are fixed. -/
def taped (s : State) (ws : List WriteReply) (rs : List ReadReply) : State := { s with wrTape := ws, rdTape := rs }

/-- A reading of a measurement whose four done flags are set. -/
def reading (m l : Word) : List ReadReply := readingReplies 0x000F m l

/-- CAP.READ on channel 0 running at step 2. -/
def searching (dac : Byte) (iter : Nat) : State := State.reset.pausedAt (.capRead 0 2) none (some dac) (some iter)

/-! ## WellFormed refuses ill-formed terms -/

theorem test_wf_adcWith : (Instr.adcWith cfg0583 .mux (.pga .g1)).wellFormed defaultParams = false := by decide
theorem test_wf_capMeas_channel : (Instr.capMeas 4 0).wellFormed defaultParams = false := by decide
theorem test_wf_capMeas_capdac : (Instr.capMeas 0 32).wellFormed defaultParams = false := by decide
theorem test_wf_capRead : (Instr.capRead 4).wellFormed defaultParams = false := by decide
theorem test_wf_capPf : (Instr.capPf 0 32).wellFormed defaultParams = false := by decide
theorem test_wf_capAf : (Instr.capAf 0 32).wellFormed defaultParams = false := by decide
theorem test_wf_pwmDiv : (Instr.pwmDiv 0).wellFormed defaultParams = false := by decide
theorem test_wf_pwmTop : (Instr.pwmTop 125000001 false).wellFormed defaultParams = false := by decide
theorem test_wf_pwmCmp : (Instr.pwmCmp (201 / 2) 12499).wellFormed defaultParams = false := by decide +kernel
theorem test_wf_pwmCmp_top : (Instr.pwmCmp 50 125000000).wellFormed defaultParams = false := by decide +kernel
theorem test_wf_pwmSet : (Instr.pwmSet 1000 50 (-1) false).wellFormed defaultParams = false := by decide +kernel
theorem test_wf_wordAdcConfig :
    (Instr.wordAdcConfig { cfg0583 with os := .start } .idle).wellFormed defaultParams = false := by decide

theorem test_valid_default : defaultParams.Valid := by decide +kernel
theorem test_valid_refuses_overlap :
    ¬ ({ defaultAdcLayout with mux := ⟨13, 3⟩ } : AdcLayout).Ok ∧ ¬ ({ defaultCapMeasLayout with capdac := ⟨9, 5⟩ } :
      CapMeasLayout).Ok ∧ ¬ ({ defaultCapTrigLayout with rep := ⟨7, 1⟩ } : CapTrigLayout).Ok := by decide
theorem test_valid_refuses_width :
    ¬ ({ defaultAdcLayout with mode := ⟨8, 2⟩ } : AdcLayout).Ok ∧
      ¬ ({ defaultAdcLayout with os := ⟨16, 1⟩ } : AdcLayout).Ok := by decide
theorem test_valid_refuses_codes :
    ¬ ({ defaultAdcCodes with mode := #v[1, 1] } : AdcCodes).Ok ∧ ¬ ({ defaultCapCodes with rate := #v[1, 2, 4] } :
      CapCodes).Ok := by decide
theorem test_valid_refuses_start :
    ¬ ({ defaultParams with adcDefaultCfg := { cfg0583 with os := .start } } : Params).Valid := by decide +kernel
theorem test_valid_refuses_clock : ¬ ({ defaultParams with refClkHz := 0 } : Params).Valid := by decide +kernel
theorem test_valid_refuses_divisor : ¬ ({ defaultParams with capLsbDiv := 0 } : Params).Valid := by decide +kernel
theorem test_valid_refuses_ceiling : ¬ ({ defaultParams with capDacMax := 32 } : Params).Valid := by decide +kernel

/-! ## Decoding words written out from the spec -/

/-- Selectors of unit 1, 30_encoding.md R110. -/
theorem test_decode_adc :
    decode defaultParams (.op 0x10 [.addr 0x4B]) = .ok (.adcNew 0x4B) ∧
    decode defaultParams (.op 0x11 [.cfg cfg0583]) = .ok (.adcEnc cfg0583) ∧
    decode defaultParams (.op 0x12 [.word 0x8583]) = .ok (.adcDec 0x8583) ∧
    decode defaultParams (.op 0x13 [.cfg cfg0583, .field .pga, .fieldValue (.pga .g1)]) =
      .ok (.adcWith cfg0583 .pga (.pga .g1)) ∧
    decode defaultParams (.op 0x14 [.cfg cfg0583]) = .ok (.adcWrcfg (some cfg0583)) ∧
    decode defaultParams (.op 0x14 [.absent]) = .ok (.adcWrcfg none) ∧
    decode defaultParams (.op 0x15 []) = .ok .adcRdcfg ∧
    decode defaultParams (.op 0x16 [.mux .mux4]) = .ok (.adcRdsingle (some .mux4)) ∧
    decode defaultParams (.op 0x16 [.absent]) = .ok (.adcRdsingle none) ∧
    decode defaultParams (.op 0x14 []) = .ok (.adcWrcfg none) ∧
    decode defaultParams (.op 0x16 []) = .ok (.adcRdsingle none) ∧
    decode defaultParams (.op 0x17 []) = .ok .adcRdv ∧
    decode defaultParams (.op 0x18 []) = .ok .adcRdy ∧
    decode defaultParams (.op 0x19 [.sample16 0x4000, .pga .g2]) = .ok (.adcScale 0x4000 .g2) := by decide +kernel

/-- Selectors of unit 2, 30_encoding.md R110. -/
theorem test_decode_cap :
    decode defaultParams (.op 0x20 [.meas ⟨.cin3, .capdac, 5⟩]) = .ok (.capEncm ⟨.cin3, .capdac, 5⟩) ∧
    decode defaultParams (.op 0x21 [.word 0x50A0]) = .ok (.capDecm 0x50A0) ∧
    decode defaultParams (.op 0x22 [.trig (measTrigger .r100 1)]) = .ok (.capEnct (measTrigger .r100 1)) ∧
    decode defaultParams (.op 0x23 [.word 0x0444]) = .ok (.capDect 0x0444) ∧
    decode defaultParams (.op 0x24 [.word 0x1234, .word 0x5678]) = .ok (.capAsm 0x1234 0x5678) ∧
    decode defaultParams (.op 0x25 [.rate .r200]) = .ok (.capSetrate .r200) ∧
    decode defaultParams (.op 0x26 [.nat 1, .nat 2]) = .ok (.capMeas 1 2) ∧
    decode defaultParams (.op 0x27 [.nat 3]) = .ok (.capRead 3) ∧
    decode defaultParams (.op 0x28 [.sample24 0x080000, .nat 2]) = .ok (.capPf 0x080000 2) ∧
    decode defaultParams (.op 0x29 [.sample24 0xFFFFFC, .nat 3]) = .ok (.capAf 0xFFFFFC 3) := by decide +kernel

/-- Selectors of unit 3, 30_encoding.md R110. -/
theorem test_decode_sr :
    decode defaultParams (.op 0x30 [.nat 15]) = .ok (.srSet 15) ∧
    decode defaultParams (.op 0x31 [.nat 16]) = .ok (.srClr 16) ∧
    decode defaultParams (.op 0x32 [.nat 65535]) = .ok (.srGet 65535) ∧
    decode defaultParams (.op 0x33 []) = .ok .srPack ∧
    decode defaultParams (.op 0x34 [.word 0x8000]) = .ok (.srTx 0x8000) ∧
    decode defaultParams (.op 0x35 []) = .ok .srFlush ∧
    decode defaultParams (.op 0x36 [.nat 3]) = .ok (.srApplyclr 3) ∧
    decode defaultParams (.op 0x37 [.nat 99]) = .ok (.srClrapply 99) := by decide +kernel

/-- Selectors of unit 4, 30_encoding.md R110; an absent `phase_correct` means false (43_pwm.md R251). -/
theorem test_decode_pwm :
    decode defaultParams (.op 0x40 [.freq 1000]) = .ok (.pwmDiv 1000) ∧
    decode defaultParams (.op 0x41 [.freq 50, .flag true]) = .ok (.pwmTop 50 true) ∧
    decode defaultParams (.op 0x41 [.freq 50, .absent]) = .ok (.pwmTop 50 false) ∧
    decode defaultParams (.op 0x41 [.freq 50]) = .ok (.pwmTop 50 false) ∧
    decode defaultParams (.op 0x42 [.rational (15 / 2), .nat 24999]) = .ok (.pwmCmp (15 / 2) 24999) ∧
    decode defaultParams (.op 0x43 [.freq 50, .rational 10, .rational (333 / 10), .flag true]) =
      .ok (.pwmSet 50 10 (333 / 10) true) ∧
    decode defaultParams (.op 0x43 [.freq 50, .rational 10, .rational 20, .absent]) = .ok (.pwmSet 50 10 20 false) ∧
    decode defaultParams (.op 0x43 [.freq 50, .rational 10, .rational 20]) = .ok (.pwmSet 50 10 20 false) := by
  decide +kernel

/-- 1 000 010 1 100 0 0 0 11 (95_test_vectors.md V-A7, 30_encoding.md R82) and 0 100 001 0 111 1 1 1 00 (V-A3). -/
theorem test_decode_word_adc_config :
    decode defaultParams (.reg .adcConfig 0b1000010110000011) = .ok (.wordAdcConfig cfg0583 .idle) ∧
    decode defaultParams (.reg .adcConfig 0b0100001011111100) = .ok (.wordAdcConfig
      ⟨.idle, .mux4, .g1, .continuous, .dr7, .window, .activeHigh, .latching, .after1⟩ .converting) := by
  decide +kernel

/-- 30_encoding.md R92. -/
theorem test_decode_word_adc_conv :
    decode defaultParams (.reg .adcConv 0b0100000000000000) = .ok (.wordAdcConv 16384) := by decide +kernel

/-- 010 100 00101 00000 (95_test_vectors.md V-C2) and 001 111 00000 00000 (V-C4); selector code 5 has no value. -/
theorem test_decode_word_cap_conf :
    decode defaultParams (.reg .capConf 0b0101000010100000) = .ok (.wordCapConf ⟨.cin3, .capdac, 5⟩) ∧
    decode defaultParams (.reg .capConf 0b0011110000000000) = .ok (.wordCapConf ⟨.cin2, .disabled, 0⟩) ∧
    decode defaultParams (.reg .capConf 0xA000) = .error (.wordWithoutValue .capConf 0xA000) := by decide +kernel

/-- 0 000 01 0 0 0000 0100 and 0 000 10 0 1 1010 0101 (95_test_vectors.md V-C9, V-C8); rate code 0 has no value. -/
theorem test_decode_word_cap_trig :
    decode defaultParams (.reg .capTrig 0b0000010000000100) = .ok (.wordCapTrig
      ⟨false, .r100, false, #v[false, false, false, false], #v[false, true, false, false]⟩) ∧
    decode defaultParams (.reg .capTrig 0b0000100110100101) = .ok (.wordCapTrig
      ⟨false, .r200, true, #v[true, false, true, false], #v[false, true, false, true]⟩) ∧
    decode defaultParams (.reg .capTrig 0x8000) = .error (.wordWithoutValue .capTrig 0x8000) := by decide +kernel

/-- 30_encoding.md R103; the low byte of the second word is ignored. -/
theorem test_decode_word_cap_result :
    decode defaultParams (.reg .capMsb 0x1234) = .ok (.wordCapMsb 0x1234) ∧
    decode defaultParams (.reg .capLsb 0x5678) = .ok (.wordCapLsb 0x56) := by decide +kernel

/-- 30_encoding.md R104: bits 0 and 15. -/
theorem test_decode_word_sr_frame :
    decode defaultParams (.reg .srFrame 0b1000000000000001) =
      .ok (.wordSrFrame (((Vector.replicate 16 false).set 0 true).set 15 true)) := by decide +kernel

/-- The encoder's words (95_test_vectors.md V-A1, V-C3, V-C8, V-S2). -/
theorem test_encode_words :
    encode defaultParams (.wordAdcConfig cfg0583 .converting) = .reg .adcConfig 0x0583 ∧
    encode defaultParams (.wordCapConf ⟨.cin4, .capdac, 31⟩) = .reg .capConf 0x73E0 ∧
    encode defaultParams (.wordCapTrig ⟨true, .r400, true, Vector.replicate 4 true, Vector.replicate 4 true⟩) =
      .reg .capTrig 0x8DFF ∧
    encode defaultParams (.wordSrFrame (((Vector.replicate 16 false).set 0 true).set 15 true)) = .reg .srFrame 0x8001 := by
  decide +kernel

/-- 30_encoding.md R109, R111: selectors next to the map's ends, and operands of other types. -/
theorem test_decode_rejects :
    decode defaultParams (.op 0x00 []) = .error (.noOperation 0x00) ∧
    decode defaultParams (.op 0x1A []) = .error (.noOperation 0x1A) ∧
    decode defaultParams (.op 0x38 []) = .error (.noOperation 0x38) ∧
    decode defaultParams (.op 0x44 []) = .error (.noOperation 0x44) ∧
    decode defaultParams (.op 0x34 [.nat 1]) = .error (.operandTypes 0x34) ∧
    decode defaultParams (.op 0x41 [.absent, .flag true]) = .error (.operandTypes 0x41) := by decide +kernel

/-- The table's rows: an 8-bit selector with operands of zeros, a 16-bit register word. -/
theorem test_decode_table_word :
    decodeTableWord 8 0x33 = some .srPack ∧ decodeTableWord 8 0x16 = some (.adcRdsingle none) ∧
    decodeTableWord 8 0x00 = none ∧
    decodeTableWord 16 0x0404 = some (.wordCapTrig
      ⟨false, .r100, false, Vector.replicate 4 false, #v[false, true, false, false]⟩) ∧
    decodeTableWord 16 0x50A0 = some (.wordCapConf ⟨.cin3, .capdac, 5⟩) ∧
    decodeTableWord 16 0x7B03 = some (.wordAdcConfig
      ⟨.idle, .mux7, .g5, .single, .dr0, .traditional, .activeLow, .nonLatching, .disabled⟩ .converting) := by decide +kernel

/-- A fetched row is run by the very next step. -/
theorem test_fetch_runs_the_row :
    (stateOf (step (State.reset.withFetchWord 8 0x33))).map State.outcome = some (some (.ok (.word 0))) := by
  decide +kernel

/-! ## Single steps, unit U1 (95_test_vectors.md 2.1) -/

theorem test_adcNew_bad : outcomeOf (.adcNew 0x4C) State.reset = some (.wrongAddress 0x4C) := by decide +kernel
theorem test_adcNew_good :
    (after (.adcNew 0x4B) State.reset).adcAddr = 0x4B ∧ (after (.adcNew 0x4B) State.reset).adcCfg = cfg0583 := by
  decide +kernel
theorem test_adcEnc_V_A3 : outcomeOf (.adcEnc ⟨.idle, .mux4, .g1, .continuous, .dr7, .window, .activeHigh, .latching,
    .after1⟩) State.reset = some (.ok (.word 0x42FC)) := by decide +kernel
theorem test_adcDec_V_A9 : outcomeOf (.adcDec 0xFFFF) State.reset = some (.ok (.cfgStatus
    ⟨.idle, .mux7, .g5, .single, .dr7, .window, .activeHigh, .latching, .disabled⟩ .idle)) := by decide +kernel
theorem test_adcWith_V_A12 : (match outcomeOf (.adcWith cfg0583 .pga (.pga .g1)) State.reset with
    | some (.ok (.cfg c)) => adcEncode defaultParams c
    | _ => 0) = 0x0383 := by decide +kernel
theorem test_adcWrcfg_V_A24 : refusalOf? (exec (.adcWrcfg none) State.reset) = some .adcNotConstructed := by decide +kernel
theorem test_adcWrcfg_V_A27 :
    let t := after (.adcWrcfg (some { cfg0583 with pga := .g1 })) (taped adcUp [.err 7] [])
    t.events = [.busWrite 0x48 0x01 0x03 0x83 (.err 7)] ∧ t.outcome = some (.busError 7) ∧ t.adcCfg.pga = .g1 := by
  decide +kernel
theorem test_adcRdcfg_V_A28 :
    outcomeOf .adcRdcfg (taped adcUp [] [.ok 0x85 0x83]) = some (.ok (.cfgStatus cfg0583 .idle)) := by decide +kernel
theorem test_adcRdy_V_A29 : outcomeOf .adcRdy (taped adcUp [] [.ok 0x05 0x83]) = some (.ok (.bool false)) := by
  decide +kernel
theorem test_adcRdy_V_A30 : outcomeOf .adcRdy (taped adcUp [] [.ok 0x80 0x00]) = some (.ok (.bool true)) := by
  decide +kernel
theorem test_adcRdv_V_A32 :
    outcomeOf .adcRdv (taped adcUp [] [.ok 0xFF 0xFF]) = some (.ok (.volts (-1 / 16000))) := by decide +kernel
theorem test_adcScale_V_A14 : outcomeOf (.adcScale 16384 .g2) State.reset = some (.ok (.volts (128 / 125))) := by
  decide +kernel
theorem test_adcScale_V_A20 :
    outcomeOf (.adcScale (BitVec.ofInt 16 (-20000)) .g4) State.reset = some (.ok (.volts (-5 / 16))) := by decide +kernel
theorem test_adcRdsingle_V_A33 :
    let t := after (.adcRdsingle none) (taped adcUp [.ok] [.ok 0x85 0x83, .ok 0x00 0x00])
    t.events = [.busWrite 0x48 0x01 0x85 0x83 .ok, .busRead 0x48 0x01 (.ok 0x85 0x83),
      .busRead 0x48 0x00 (.ok 0x00 0x00)] ∧ t.outcome = some (.ok (.volts 0)) := by decide +kernel
theorem test_adcRdsingle_V_A34 :
    let t := after (.adcRdsingle none) (taped adcUp [.ok] [.ok 0x05 0x83, .err 9])
    t.busy = true ∧ t.seq = some (.adcRdsingle 4) ∧ (stateOf (step t)).map State.outcome = some (some (.busError 9)) := by decide +kernel

/-! ## Single steps, unit U2 (95_test_vectors.md 2.2) -/

theorem test_capEncm_V_C3 : outcomeOf (.capEncm ⟨.cin4, .capdac, 31⟩) State.reset = some (.ok (.word 0x73E0)) := by
  decide +kernel
theorem test_capDecm_V_C5 :
    outcomeOf (.capDecm 0xFFFF) State.reset = some (.ok (.meas ⟨.disabled, .disabled, 31⟩)) := by decide +kernel
theorem test_capDecm_V_C6 :
    refusalOf? (exec (.capDecm 0xA000) State.reset) = some (.codeWithoutValue 0xA000) := by decide +kernel
theorem test_capEnct_V_C8 : outcomeOf (.capEnct
    ⟨false, .r200, true, #v[true, false, true, false], #v[false, true, false, true]⟩) State.reset =
      some (.ok (.word 0x09A5)) := by decide +kernel
theorem test_capDect_V_C9 : outcomeOf (.capDect 0x0444) State.reset = some (.ok (.trig
    ⟨false, .r100, false, #v[false, true, false, false], #v[false, true, false, false]⟩)) := by decide +kernel
theorem test_capAsm_V_C10 : outcomeOf (.capAsm 0x1234 0x5678) State.reset = some (.ok (.raw 1193046)) := by
  decide +kernel
theorem test_capAsm_V_C12 : outcomeOf (.capAsm 0x8000 0x00FF) State.reset = some (.ok (.raw (-8388608))) := by
  decide +kernel
theorem test_capSetrate : (after (.capSetrate .r400) State.reset).capRate = .r400 := by decide +kernel
theorem test_capMeas_V_C17 :
    let t := after (.capMeas 1 2) (taped State.reset [.ok, .ok] [.ok 0x04 0x04, .ok 0x12 0x34, .ok 0x56 0x78])
    t.events = [.busWrite 0x50 0x09 0x30 0x40 .ok, .busWrite 0x50 0x0C 0x04 0x40 .ok, .delay .ms 11,
      .busRead 0x50 0x0C (.ok 0x04 0x04), .busRead 0x50 0x02 (.ok 0x12 0x34), .busRead 0x50 0x03 (.ok 0x56 0x78)] ∧
    t.outcome = some (.ok (.raw 1193046)) := by decide +kernel
theorem test_capMeas_V_C18 :
    let t := after (.capMeas 3 31) (taped { State.reset with capRate := .r400 } [.ok, .ok] [.ok 0x0C 0x0E])
    t.events = [.busWrite 0x50 0x0B 0x73 0xE0 .ok, .busWrite 0x50 0x0C 0x0C 0x10 .ok, .delay .ms 3,
      .busRead 0x50 0x0C (.ok 0x0C 0x0E)] ∧ t.outcome = some (.measurementNotComplete 3) := by decide +kernel
theorem test_capRead_V_C21 : outcomeOf (.capRead 0) (taped State.reset [.ok, .ok] (reading 0x8000 0x0000)) =
    some (.ok (.range .underflow)) := by decide +kernel
theorem test_capRead_turn_V_C23 :
    (stateOf (step (taped (searching 3 3) [.ok, .ok] (reading 0x8000 0x0000)))).map (fun t => (t.busy, t.capDac, t.capIter)) =
      some (true, some 2, some 4) := by decide +kernel
theorem test_capPf_V_C28 :
    outcomeOf (.capPf (BitVec.ofInt 24 (-524288)) 2) State.reset = some (.ok (.picofarads (21 / 4))) := by decide +kernel
theorem test_capAf_V_C31 :
    outcomeOf (.capAf (BitVec.ofInt 24 (-4)) 3) State.reset = some (.ok (.attofarads 9374993)) := by decide +kernel
theorem test_capAf_V_C32 : outcomeOf (.capAf 1193046 2) State.reset = some (.ok (.attofarads 8525554)) := by
  decide +kernel

/-- 10_state.md R38 inside a machine step: a measurement that reaches its end has come to step 8, busy; SR.TX's last
bit to step f at index 15; and the second transmit of SR.APPLYCLR ends at
line 3 and not where the first did. -/
theorem test_seq_moves_forward :
    let m := measureChannel .capMeas 0 0 (taped State.reset [.ok, .ok] (reading 0 0)) fun _ s => s
    let x := txShift .srTx 0x8000 State.reset
    let y := applyLine 2 3 true (goTo State.reset (.srPair 1))
    m.seq = some (.capMeas 8) ∧ m.busy = true ∧ x.seq = some (.srTx 15 .f) ∧ x.busy = true ∧ x.srIdx = some 15 ∧
      y.seq = some (.srPairTx 2 16 .j) ∧ y.srIdx = none ∧
      (applyLine 3 3 false y).seq = some (.srPairTx 3 16 .j) ∧ (passSteps 0 6 State.reset).seq = some (.capRead 0 6) := by
  decide +kernel

/-! ## Single steps, unit U3 (95_test_vectors.md 2.3) -/

theorem test_srSet : packFrame (after (.srSet 15) State.reset).frame = 0x8000 := by decide +kernel
theorem test_srSet_V_S6 :
    outcomeOf (.srSet 16) State.reset = some (.indexOutOfRange 16) ∧
      packFrame (after (.srSet 16) State.reset).frame = 0 := by decide +kernel
theorem test_srClr_V_S3 :
    packFrame (after (.srClr 0) { State.reset with frame := unpackFrame 0xFFFF }).frame = 0xFFFE := by decide +kernel
theorem test_srGet : outcomeOf (.srGet 3) { State.reset with frame := unpackFrame 0x0008 } = some (.ok (.bool true)) := by
  decide +kernel
theorem test_srGet_V_S6 : outcomeOf (.srGet 65535) State.reset = some (.indexOutOfRange 65535) := by decide +kernel
theorem test_srPack_V_S2 :
    outcomeOf .srPack { State.reset with frame := ((Vector.replicate 16 false).set 0 true).set 15 true } =
      some (.ok (.word 0x8001)) := by decide +kernel
/-- Events 1 to 6 and 91 to 100 of vector T1, and their number. -/
theorem test_srTx_T1 :
    let e := (after (.srTx 0x8000) State.reset).events
    e.length = 100 ∧
    e.take 6 = [.pin .ser false, .delay .us 1, .pin .srclk true, .delay .us 1, .pin .srclk false, .delay .us 1] ∧
    e.drop 90 = [.pin .ser true, .delay .us 1, .pin .srclk true, .delay .us 1, .pin .srclk false, .delay .us 1,
      .pin .ser false, .pin .rclk true, .delay .us 5, .pin .rclk false] := by decide +kernel
/-- The levels of SER at the sixteen rises of SRCLK for 0xA5C3 (V-S11). -/
theorem test_srTx_V_S11 :
    ((after (.srTx 0xA5C3) State.reset).events.filterMap
      (fun e => match e with | .pin .ser b => some b | _ => none)).take 16 =
      [true, true, false, false, false, false, true, true, true, false, true, false, false, true, false, true] := by
  decide +kernel
theorem test_srFlush_V_S12 :
    (after .srFlush { State.reset with frame := unpackFrame 0x8000 }).events = (after (.srTx 0x8000) State.reset).events := by
  decide +kernel
theorem test_srApplyclr_V_S13 :
    let t := after (.srApplyclr 3) { State.reset with frame := unpackFrame 0x0008 }
    t.events.length = 200 ∧ packFrame t.frame = 0 ∧ t.events[18]? = some (.pin .ser true) ∧
      t.events[118]? = some (.pin .ser false) := by decide +kernel
theorem test_srClrapply_V_S14 :
    let t := after (.srClrapply 3) State.reset
    t.events.length = 200 ∧ packFrame t.frame = 0x0008 ∧ t.events[18]? = some (.pin .ser false) ∧
      t.events[118]? = some (.pin .ser true) := by decide +kernel

/-! ## Single steps, unit U4 (95_test_vectors.md 2.4) -/

theorem test_pwmDiv_V_P2 : outcomeOf (.pwmDiv 1999) State.reset = some (.ok (.div 10)) := by decide +kernel
theorem test_pwmDiv_V_P8 : outcomeOf (.pwmDiv 9) State.reset = some (.ok (.div 255)) := by decide +kernel
theorem test_pwmTop_V_P2 : outcomeOf (.pwmTop 1999 true) State.reset = some (.ok (.top 3126 true)) := by decide +kernel
theorem test_pwmTop_V_P11 : outcomeOf (.pwmTop 7 false) State.reset = some (.ok (.top 70027 false)) := by decide +kernel
theorem test_pwmCmp_V_P20 : outcomeOf (.pwmCmp 50 12499) State.reset = some (.ok (.compare 6250)) := by decide +kernel
theorem test_pwmCmp_V_P26 : outcomeOf (.pwmCmp (1 / 2) 62499) State.reset = some (.ok (.compare 312)) := by decide +kernel
/-- Both sides of the end of the domain of a top (43_pwm.md R250 b, R251). -/
theorem test_pwmCmp_top : outcomeOf (.pwmCmp 100 124999999) State.reset = some (.ok (.compare 124999999)) ∧
    refusalOf? (exec (.pwmCmp 0 125000000) State.reset) = some (.topOutOfDomain 125000000) := by decide +kernel
theorem test_pwmSet_V_P35 :
    let t := after (.pwmSet 50 10 (333 / 10) true) State.reset
    t.events = [.pwm 100 12499 1250 4162] ∧ t.outcome = some (.ok (.pwm 100 12499 1250 4162 true)) := by decide +kernel
theorem test_pwmSet_V_P38 : refusalOf? (exec (.pwmSet 1000 50 101 false) State.reset) = some .dutyOutOfDomain := by
  decide +kernel

/-! ## Single steps, register words -/

theorem test_wordAdcConfig :
    outcomeOf (.wordAdcConfig cfg0583 .idle) State.reset = some (.ok (.cfgStatus cfg0583 .idle)) := by decide +kernel
theorem test_wordAdcConv : outcomeOf (.wordAdcConv 0x8000) State.reset = some (.ok (.raw (-32768))) := by decide +kernel
theorem test_wordCapConf :
    outcomeOf (.wordCapConf ⟨.cin1, .capdac, 0⟩) State.reset = some (.ok (.meas ⟨.cin1, .capdac, 0⟩)) := by
  decide +kernel
theorem test_wordCapTrig : outcomeOf (.wordCapTrig (measTrigger .r100 1)) State.reset =
    some (.ok (.trig ⟨false, .r100, false, #v[false, true, false, false], Vector.replicate 4 false⟩)) := by decide +kernel
theorem test_wordCapMsb : outcomeOf (.wordCapMsb 0x1234) State.reset = some (.ok (.word 0x1234)) := by decide +kernel
theorem test_wordCapLsb : outcomeOf (.wordCapLsb 0x56) State.reset = some (.ok (.byte 0x56)) := by decide +kernel
theorem test_wordSrFrame : outcomeOf (.wordSrFrame (Vector.replicate 16 true)) State.reset =
    some (.ok (.frame (Vector.replicate 16 true))) := by decide +kernel

/-- From reset with no command the machine stays as it is. -/
theorem test_reset_idles : stateOf (step State.reset) = some State.reset := by decide +kernel

/-! ## Witnesses: a state and operands that meet each statement's hypotheses -/

/-- After reset, with one command presented. -/
def asked (c : Command) : State := { State.reset with host := [c] }

/-- ADC.RDSINGLE running at step 4 after one poll, one "converting" answer to come. -/
def polling : State := (taped adcUp [] [.ok 0x05 0x83]).pausedAt (.adcRdsingle 4) (some 1) none none

/-- Valid parameters with another capacitance layout, code table, device address and ceiling than the default ones. -/
def otherCap : Params :=
  { defaultParams with
    capDevAddr := 0x2A
    capMeasLayout := ⟨⟨0, 3⟩, ⟨6, 3⟩, ⟨9, 5⟩⟩
    capTrigLayout :=
      { reset := ⟨0, 1⟩, rate := ⟨1, 2⟩, rep := ⟨3, 1⟩
        init := #v[⟨4, 1⟩, ⟨6, 1⟩, ⟨8, 1⟩, ⟨10, 1⟩], done := #v[⟨5, 1⟩, ⟨7, 1⟩, ⟨9, 1⟩, ⟨15, 1⟩] }
    capCodes := ⟨#v[3, 2, 7, 6, 5, 0], #v[0, 2, 1]⟩
    capDacMax := 7 }

/-- The default parameters with limits. -/
def limited (poll search : Option Nat) : Params :=
  { defaultParams with adcPollLimit := poll, capSearchLimit := search }

theorem witness_StepRunsTheDecodedOperation :
    (asked (.op 0x33 [])).busy = false ∧ (asked (.op 0x33 [])).host = [.op 0x33 []] ∧
      decode (asked (.op 0x33 [])).params (.op 0x33 []) = .ok .srPack := by decide +kernel

theorem witness_BusyBlockTakesNoCommand : polling.busy = true ∧ goesOn (step polling) = true := by decide +kernel

theorem witness_UnknownSelectorIsRefused :
    ([0x00, 0x0F, 0x1A, 0x1F, 0x2A, 0x38, 0x3F, 0x44, 0xFF] : List Byte).all
      (fun op => decide ((asked (.op op [])).busy = false ∧ (asked (.op op [])).host = .op op [] :: [] ∧
        ¬ (0x10 ≤ op.toNat ∧ op.toNat ≤ 0x19 ∨ 0x20 ≤ op.toNat ∧ op.toNat ≤ 0x29 ∨
          0x30 ≤ op.toNat ∧ op.toNat ≤ 0x37 ∨ 0x40 ≤ op.toNat ∧ op.toNat ≤ 0x43))) = true := by decide +kernel

theorem witness_DecodeOfEncodeIsIdentity :
    defaultParams.Valid ∧ [Instr.adcWith cfg0583 .pga (.pga .g5), .capMeas 3 31, .capRead 3, .capPf 0 31,
      .srSet 99, .pwmDiv 125000000, .pwmTop 1 true, .pwmCmp 100 0, .pwmSet 1 0 100 false,
      .wordAdcConfig cfg0583 .converting].all (Instr.wellFormed defaultParams) = true := by decide +kernel

theorem witness_EveryStepKeepsTheInvariant :
    (asked (.op 0x37 [.nat 3])).Inv ∧ goesOn (step (asked (.op 0x37 [.nat 3]))) = true ∧
      polling.Inv ∧ goesOn (step polling) = true ∧ (searching 31 31).Inv ∧
      goesOn (step (taped (searching 31 31) [.err 0] [])) = true := by
  refine ⟨by decide +kernel, by decide +kernel, ?_, by decide +kernel, ?_, by decide +kernel⟩
  · decide +kernel
  · decide +kernel

theorem witness_InvariantStatesNeverFault : polling.Inv ∧ (searching 0 1).Inv :=
  ⟨by decide +kernel, by decide +kernel⟩

/-- Operations of three units, and a turn of each of the two that can be left running. -/
theorem witness_UnitsShareNoState :
    unitOf (.capSetrate .r400) = .cap ∧ goesOn (exec (.capSetrate .r400) State.reset) = true ∧
      unitOf (.srSet 15) = .sr ∧ goesOn (exec (.srSet 15) State.reset) = true ∧
      unitOf (.adcNew 0x48) = .adc ∧ goesOn (exec (.adcNew 0x48) State.reset) = true ∧
      polling.busy = true ∧ polling.seq = some (.adcRdsingle 4) ∧ goesOn (step polling) = true ∧
      (searching 3 3).busy = true ∧ (searching 3 3).seq = some (.capRead 0 2) ∧
      goesOn (step (taped (searching 3 3) [.ok, .ok] (reading 0x8000 0x0000))) = true := by
  decide +kernel

theorem witness_HistoryGrowsAndParametersStay :
    goesOn (step (asked (.op 0x34 [.word 0x8000]))) = true := by decide +kernel

/-- An error of an accepted operation, with and without a configuration replaced, and of a later turn. -/
theorem witness_ErrorsLeavePersistentState :
    State.reset.outcome = none ∧ outcomeOf (.srSet 16) State.reset = some (.indexOutOfRange 16) ∧
      (taped adcUp [.err 3] []).outcome = none ∧
      outcomeOf (.adcWrcfg (some zeroCfg)) (taped adcUp [.err 3] []) = some (.busError 3) ∧
      (OpOutcome.busError 3).isError = true ∧ polling.busy = true ∧
      (stateOf (step { polling with params := limited (some 1) none })).map State.outcome =
        some (some (.conversionTimeout 1)) := by decide +kernel

theorem witness_OutcomesFollowTheMatrix :
    State.reset.outcome = none ∧ State.reset.busy = false ∧
      outcomeOf (.adcNew 0x47) State.reset = some (.wrongAddress 0x47) ∧
      outcomeOf .adcRdcfg (taped adcUp [] [.err 1]) = some (.busError 1) ∧
      outcomeOf (.capMeas 0 0) (taped State.reset [.ok, .ok] [.ok 0xFF 0xF7]) = some (.measurementNotComplete 0) ∧
      outcomeOf (.srGet 16) State.reset = some (.indexOutOfRange 16) ∧
      outcomeOf (.adcRdsingle none) (taped { adcUp with params := limited (some 0) none } [.ok] []) =
        some (.conversionTimeout 0) ∧
      outcomeOf (.capRead 0) { State.reset with params := limited none (some 0) } = some (.searchNotConverged 0) ∧
      (after (.adcRdsingle none) (taped adcUp [.ok] [.ok 0x05 0x83])).busy = true := by decide +kernel

/-- Every error a later turn can end with, the two limits at 2, and a turn that goes on. -/
theorem witness_OutcomesFollowTheMatrix_turns :
    let poll : State := { polling with params := limited (some 2) (some 2), adcPolls := some 2 }
    let search : State := { searching 1 2 with params := limited (some 2) (some 2) }
    let measure : State := { searching 1 1 with params := limited (some 2) (some 2) }
    poll.outcome = none ∧ poll.busy = true ∧ poll.seq = some (.adcRdsingle 4) ∧
      (stateOf (step poll)).map State.outcome = some (some (.conversionTimeout 2)) ∧
      (stateOf (step (taped polling [] [.err 6]))).map State.outcome = some (some (.busError 6)) ∧
      (stateOf (step polling)).map State.busy = some true ∧
      search.outcome = none ∧ search.busy = true ∧ search.seq = some (.capRead 0 2) ∧
      (stateOf (step search)).map State.outcome = some (some (.searchNotConverged 2)) ∧
      (stateOf (step (taped measure [.ok, .ok] [.ok 0xFF 0xF7]))).map State.outcome =
        some (some (.measurementNotComplete 0)) ∧
      (stateOf (step (taped measure [.ok, .err 7] []))).map State.outcome = some (some (.busError 7)) ∧
      (stateOf (step (taped measure [.ok, .ok] (reading 0x7FFF 0xFF00)))).map State.busy = some true := by
  decide +kernel

theorem witness_BusErrorEndsTheOperation :
    outcomeOf .adcRdv (taped adcUp [] [.err 5]) = some (.busError 5) ∧ adcUp.outcome = none ∧
      (taped polling [] [.err 6]).outcome = none ∧ (taped polling [] [.err 6]).busy = true ∧
      (stateOf (step (taped polling [] [.err 6]))).map State.outcome = some (some (.busError 6)) := by decide +kernel

/-- A failed transaction among the new events: the status read of ADC.RDSINGLE, one of CAP.READ, and one of a turn. -/
theorem witness_BusErrorEndsTheOperation_back :
    (after (.adcRdsingle none) (taped adcUp [.ok] [.err 5])).events =
        adcUp.events ++ [.busWrite 0x48 0x01 0x85 0x83 .ok] ++ [.busRead 0x48 0x01 (.err 5)] ∧
      (Event.busRead 0x48 0x01 (.err 5)).busErrorValue = some 5 ∧
      outcomeOf (.adcRdsingle none) (taped adcUp [.ok] [.err 5]) = some (.busError 5) ∧
      ((after (.capRead 0) (taped State.reset [.err 0] [])).events.map Event.busErrorValue) = [some 0] ∧
      (searching 1 1).busy = true ∧
      (stateOf (step (taped (searching 1 1) [.ok, .err 7] []))).map (fun t => t.events.map Event.busErrorValue) =
        some [none, some 7] := by decide +kernel

theorem witness_validParams : defaultParams.Valid := by decide +kernel

theorem witness_idle : State.reset.Idle ∧ State.reset.params = defaultParams ∧ State.reset.adcPresent = false := by
  decide +kernel

theorem witness_AdcNewConstructsOrFails :
    State.reset.Idle ∧ isAdcAddress 0x48 = true ∧ isAdcAddress 0x4B = true ∧ isAdcAddress 0x47 = false ∧
      isAdcAddress 0x4C = false := by decide +kernel

theorem witness_AdcWithSetsOneField : State.reset.Idle ∧ (AdcFieldValue.pga .g0).field ≠ .mux := by decide +kernel

theorem witness_AdcConstructed : adcUp.Idle ∧ adcUp.adcPresent = true ∧ adcUp.params.Valid ∧ adcUp.adcCfg.os = .idle := by
  refine ⟨by decide +kernel, by decide +kernel, by decide +kernel, by decide +kernel⟩

theorem witness_AdcScaleGivesVolts :
    State.reset.Idle ∧ (BitVec.toInt (0x8000 : BitVec 16)) = -32768 ∧
      (0 : Rat) < (State.reset.params.adcFsMv[Pga.g0.index] : Rat) / 1000 := by decide +kernel

/-- One state for each of the four clauses of an operation that starts. -/
theorem witness_AdcRdsingleEndsAtTheFirstIdlePollOrAnError :
    adcUp.Idle ∧ adcUp.adcPresent = true ∧ adcUp.params.adcPollLimit ≠ some 0 ∧
      adcUp.params.adcLayout.os.get ((0x80 : Byte) ++ (0x00 : Byte)) = 1 ∧
      outcomeOf (.adcRdsingle none) (taped adcUp [.err 0] []) = some (.busError 0) ∧
      outcomeOf (.adcRdsingle none) (taped adcUp [.ok] [.err 5]) = some (.busError 5) ∧
      outcomeOf (.adcRdsingle none) (taped adcUp [.ok] [.ok 0x80 0x00, .err 6]) = some (.busError 6) ∧
      outcomeOf (.adcRdsingle none) (taped adcUp [.ok] [.ok 0x80 0x00, .ok 0x40 0x00]) =
        some (.ok (.volts (128 / 125))) := by decide +kernel

/-- One state for each of the three clauses of a later turn. -/
theorem witness_AdcRdsingleEndsAtTheFirstIdlePollOrAnError_turn :
    polling.busy = true ∧ polling.adcPresent = true ∧ polling.seq = some (.adcRdsingle 4) ∧
      (∃ n, polling.adcPolls = some n ∧ polling.params.adcPollLimit ≠ some n) ∧ polling.capDac = none ∧
      polling.capIter = none ∧ polling.srIdx = none ∧
      (stateOf (step (taped polling [] [.err 5]))).map State.outcome = some (some (.busError 5)) ∧
      (stateOf (step (taped polling [] [.ok 0x80 0x00, .err 6]))).map State.outcome = some (some (.busError 6)) ∧
      (stateOf (step (taped polling [] [.ok 0x80 0x00, .ok 0x40 0x00]))).map State.outcome =
        some (some (.ok (.volts (128 / 125)))) := by
  refine ⟨by decide +kernel, by decide +kernel, by decide +kernel, ⟨_, rfl, by decide +kernel⟩, ?_⟩
  decide +kernel

/-- Two "converting" answers, every other bit set in one and clear in the other. -/
def twoPolls : List (Byte × Byte) := [(0x7F, 0xFF), (0x00, 0x00)]

theorem witness_AdcRdsinglePollsUntilIdle :
    let s := taped adcUp [.ok] [.ok 0x7F 0xFF, .ok 0x00 0x00, .ok 0x80 0x00, .ok 0x40 0x00]
    s.Idle ∧ s.adcPresent = true ∧ s.params.adcPollLimit = none ∧
      twoPolls.all (fun q => decide (s.params.adcLayout.os.get (q.1 ++ q.2) ≠ 1)) = true ∧
      s.params.adcLayout.os.get ((0x80 : Byte) ++ (0x00 : Byte)) = 1 ∧ s.wrTape = .ok :: [] ∧
      s.rdTape = twoPolls.map (fun q => .ok q.1 q.2) ++ .ok 0x80 0x00 :: .ok 0x40 0x00 :: [] := by decide +kernel

/-- The same under a limit of one more status read than there are "converting" answers. -/
theorem witness_AdcRdsinglePollsUntilIdle_limit :
    let s := taped { adcUp with params := limited (some 3) none } [.ok]
      [.ok 0x7F 0xFF, .ok 0x00 0x00, .ok 0x80 0x00, .ok 0x40 0x00]
    s.Idle ∧ s.adcPresent = true ∧ s.params.adcPollLimit = some 3 ∧ 1 ≤ twoPolls.length ∧ twoPolls.length = 3 - 1 ∧
      twoPolls.all (fun q => decide (s.params.adcLayout.os.get (q.1 ++ q.2) ≠ 1)) = true ∧
      s.params.adcLayout.os.get ((0x80 : Byte) ++ (0x00 : Byte)) = 1 ∧ s.wrTape = .ok :: [] ∧
      s.rdTape = twoPolls.map (fun q => .ok q.1 q.2) ++ .ok 0x80 0x00 :: .ok 0x40 0x00 :: [] ∧
      (stateOf (runSteps 2 (after (.adcRdsingle none) s))).map State.outcome =
        some (some (.ok (.volts (128 / 125)))) := by decide +kernel

theorem witness_AdcRdsingleTimesOut :
    let s := taped { adcUp with params := limited (some 2) none } [.ok] [.ok 0x7F 0xFF, .ok 0x00 0x00]
    s.Idle ∧ s.adcPresent = true ∧ twoPolls ≠ [] ∧ s.params.adcPollLimit = some twoPolls.length ∧
      twoPolls.all (fun q => decide (s.params.adcLayout.os.get (q.1 ++ q.2) ≠ 1)) = true ∧ s.wrTape = .ok :: [] ∧
      s.rdTape = twoPolls.map (fun q => .ok q.1 q.2) ++ [] := by decide +kernel

theorem witness_AdcRdsingleHangsWhileConverting :
    let s := taped adcUp [.ok] [.ok 0x05 0x83, .ok 0x7F 0xFF, .ok 0x00 0x00]
    s.Idle ∧ s.adcPresent = true ∧ s.params.adcPollLimit = none ∧
      ((0x05, 0x83) :: twoPolls).all (fun q => decide (s.params.adcLayout.os.get (q.1 ++ q.2) ≠ 1)) = true ∧
      s.wrTape = .ok :: [] ∧ s.rdTape = ((0x05, 0x83) :: twoPolls).map (fun q => .ok q.1 q.2) ++ [] := by decide +kernel

/-- Codes next to the ones without a value: 4, 7 and 5, 6. -/
theorem witness_CapDecmReadsTheMeasurementWord :
    (BitVec.extractLsb' 13 3 (0xA000 : Word)).toNat = 5 ∧ (BitVec.extractLsb' 10 3 (0x1800 : Word)).toNat = 6 ∧
      (BitVec.extractLsb' 13 3 (0x9FE0 : Word)).toNat = 4 ∧ (BitVec.extractLsb' 10 3 (0x9FE0 : Word)).toNat = 7 := by
  decide +kernel

theorem witness_CapDectReadsTheTriggerWord :
    BitVec.extractLsb' 10 2 (0x8000 : Word) = 0 ∧ BitVec.extractLsb' 10 2 (0x8400 : Word) ≠ 0 := by decide +kernel

/-- For the six codec operations: valid parameters under which selector codes 1 and 4 and rate code 3 have no value. -/
theorem witness_CodecsInAnotherLayout :
    let s : State := { State.reset with params := otherCap }
    s.Idle ∧ s.params.Valid ∧ refusalOf? (exec (.capDecm 0x0004) s) = some (.codeWithoutValue 0x0004) ∧
      outcomeOf (.capDecm 0x0003) s = some (.ok (.meas ⟨.cin1, .disabled, 0⟩)) ∧
      refusalOf? (exec (.capDect 0x0006) s) = some (.codeWithoutValue 0x0006) ∧
      outcomeOf (.capEncm ⟨.cin1, .capdac, 7⟩) s = some (.ok (.word 0x0F43)) := by
  refine ⟨by decide +kernel, by decide +kernel, ?_⟩
  decide +kernel

/-- For CapMeasReturnsTheReading and CapReadFirstReadingDecides: both ends of the channel and calibration ranges. -/
theorem witness_CapMeasReturnsTheReading :
    let s := taped State.reset [.ok, .ok] [.ok 0x00 0x09, .ok 0x12 0x34, .ok 0x56 0x78]
    s.Idle ∧ s.params.Valid ∧ s.params.capSearchLimit ≠ some 0 ∧ 31 ≤ s.params.capDacMax ∧
      s.wrTape = .ok :: .ok :: [] ∧ s.rdTape = .ok 0x00 0x09 :: .ok 0x12 0x34 :: .ok 0x56 0x78 :: [] ∧
      doneBit s.params 0 ((0x00 : Byte) ++ (0x09 : Byte)) = true ∧
      doneBit s.params 3 ((0x00 : Byte) ++ (0x09 : Byte)) = true := by
  decide +kernel

/-- The same under other parameters, whose done flag of channel 3 is bit 15. -/
theorem witness_CapMeasReturnsTheReading_otherLayout :
    let s := taped { State.reset with params := otherCap } [.ok, .ok] [.ok 0x80 0x00, .ok 0x12 0x34, .ok 0x56 0x78]
    s.Idle ∧ s.params.Valid ∧ 7 ≤ s.params.capDacMax ∧ doneBit s.params 3 ((0x80 : Byte) ++ (0x00 : Byte)) = true ∧
      outcomeOf (.capMeas 3 7) s = some (.ok (.raw 1193046)) := by decide +kernel

/-- Every bit of the status word but the slot's own is set. -/
theorem witness_DoneFlagClearEndsTheOperation :
    let s := taped State.reset [.ok, .ok] [.ok 0xFF 0xF7]
    s.Idle ∧ s.params.Valid ∧ 31 ≤ s.params.capDacMax ∧ s.wrTape = .ok :: .ok :: [] ∧ s.rdTape = .ok 0xFF 0xF7 :: [] ∧
      doneBit s.params 0 ((0xFF : Byte) ++ (0xF7 : Byte)) = false ∧
      doneBit s.params 3 ((0xFF : Byte) ++ (0xFE : Byte)) = false := by decide +kernel

/-- The same for CAP.READ: its first measurement, and a later turn at both ends of the calibration range. -/
theorem witness_DoneFlagClearEndsTheOperation_read :
    let s := taped State.reset [.ok, .ok] [.ok 0xFF 0xF7]
    s.params.capSearchLimit ≠ some 0 ∧ outcomeOf (.capRead 0) s = some (.measurementNotComplete 0) ∧
      ([0, 31] : List Byte).all (fun dac =>
        let u := taped (searching dac 5) [.ok, .ok] [.ok 0xFF 0xF7]
        decide (u.busy = true ∧ u.seq = some (.capRead (0 : Fin 4) 2) ∧ u.capDac = some dac ∧ u.capIter = some 5 ∧
          u.adcPolls = none ∧ u.srIdx = none ∧ u.params.capSearchLimit ≠ some 5 ∧
          dac.toNat ≤ u.params.capDacMax) &&
        decide ((stateOf (step u)).map State.outcome = some (some (.measurementNotComplete 0)))) = true := by
  decide +kernel

/-- Each of the five failures, for CAP.MEAS at both ends of the calibration range, for CAP.READ's first measurement and
for a later turn. -/
theorem witness_MeasurementStopsAtABusError :
    State.reset.Idle ∧ State.reset.params.Valid ∧ 31 ≤ State.reset.params.capDacMax ∧
      doneBit State.reset.params 0 ((0x00 : Byte) ++ (0x08 : Byte)) = true ∧
      State.reset.params.capSearchLimit ≠ some 0 ∧
      (failedMeasurements defaultParams .r100 0 31 1 0x00 0x08 0x7F 0xFF).length = 5 ∧
      (failedMeasurements defaultParams .r100 0 31 1 0x00 0x08 0x7F 0xFF).all (fun q =>
        let s := taped State.reset q.1 q.2.1
        let u := taped (searching 31 5) q.1 q.2.1
        decide (outcomeOf (.capMeas 0 0) s = some (.busError 1) ∧ outcomeOf (.capMeas 0 31) s = some (.busError 1) ∧
          outcomeOf (.capRead 0) s = some (.busError 1) ∧ u.busy = true ∧ u.seq = some (.capRead (0 : Fin 4) 2) ∧
          u.capDac = some 31 ∧ u.capIter = some 5 ∧ u.adcPolls = none ∧ u.srIdx = none ∧
          u.params.capSearchLimit ≠ some 5 ∧
          (stateOf (step u)).map State.outcome = some (some (.busError 1)))) = true := by
  refine ⟨by decide +kernel, by decide +kernel, ?_⟩
  decide +kernel

theorem witness_CapOperandsOutsideTheirDomainAreRefused :
    3 < 4 ∧ State.reset.params.capDacMax < 32 ∧ ¬ State.reset.params.capDacMax < 31 := by decide +kernel

/-- A reading at each bound, at both ends of the calibration range. -/
theorem witness_CapSearchTurnFollowsTheReading :
    let s := taped (searching 31 5) [.ok, .ok] (reading 0x7FFF 0xFF00)
    s.params.Valid ∧ s.params.capSearchLimit ≠ some 5 ∧ (BitVec.toNat (31 : Byte)) ≤ s.params.capDacMax ∧
      s.busy = true ∧ s.seq = some (.capRead (0 : Fin 4) 2) ∧ s.capDac = some 31 ∧ s.capIter = some 5 ∧
      s.adcPolls = none ∧ s.srIdx = none ∧ s.wrTape = .ok :: .ok :: [] ∧
      s.rdTape = .ok 0x00 0x0F :: .ok 0x7F 0xFF :: .ok 0xFF 0x00 :: [] ∧
      doneBit s.params 0 ((0x00 : Byte) ++ (0x0F : Byte)) = true ∧ (searching 0 5).capDac = some 0 ∧
      (capAssemble 0x7FFF 0xFF00).toInt = 8388607 ∧ (capAssemble 0x8000 0x0000).toInt = -8388608 := by
  refine ⟨by decide +kernel, ?_⟩
  decide +kernel

theorem witness_SearchStepHasFiveCases :
    (-8388608 : Int) ≤ -8388608 ∧ (8388607 : Int) ≤ 8388607 ∧ 31 ≤ 31 := by decide

/-- Thirty-two readings at the upper bound. -/
theorem witness_SearchEndsWithin32Measurements :
    let readings := List.replicate 32 ((0x7FFF : Word), (0xFF00 : Word))
    let s := taped State.reset (List.replicate 64 .ok ++ [])
      (readings.flatMap (fun q => readingReplies 0x000F q.1 q.2) ++ [])
    s.Idle ∧ s.params = defaultParams ∧ (0x000F : Word).getLsbD (3 - 2) = true ∧ readings.length = 32 ∧
      readings.all (fun q => decide ((capAssemble q.1 q.2).toInt ≠ -8388608)) = true ∧
      s.wrTape = List.replicate 64 .ok ++ [] ∧
      s.rdTape = readings.flatMap (fun q => readingReplies 0x000F q.1 q.2) ++ [] := by decide +kernel

/-- Two readings, without a limit and with one. -/
theorem witness_AlternatingReadingsOscillate :
    ([none, some (1 + 1)] : List (Option Nat)).all (fun limit =>
      let s := taped { State.reset with params := { defaultParams with capSearchLimit := limit } }
        [.ok, .ok, .ok, .ok] (readingReplies 0x000F 0x7FFF 0xFF00 ++ readingReplies 0x000F 0x8000 0x0000)
      decide (s.Idle ∧ s.params = { defaultParams with capSearchLimit := limit } ∧
        (0x000F : Word).getLsbD (3 - 0) = true ∧ s.wrTape = List.replicate (2 * (1 + 1)) .ok ++ [] ∧
        s.rdTape = (List.range (1 + 1)).flatMap (fun j =>
          if j % 2 = 0 then readingReplies 0x000F 0x7FFF 0xFF00 else readingReplies 0x000F 0x8000 0x0000) ++ [])) =
      true := by decide +kernel

theorem witness_CapConversions :
    State.reset.Idle ∧ 0 < State.reset.params.capLsbDiv ∧ State.reset.params.capDacMax < 32 ∧
      31 ≤ State.reset.params.capDacMax ∧ 0 ≤ (BitVec.toInt (0x000000 : Word24)) ∧
      (BitVec.toInt (0xFFFFFF : Word24)) < 0 ∧ (BitVec.toInt (0x002000 : Word24)) % 8192 = 0 := by decide +kernel

theorem witness_SrIndexOperations : State.reset.Idle ∧ 15 < 16 ∧ 16 ≤ 16 := by decide +kernel

theorem witness_ReceiverOutputsChangeOnlyAtTheLatch :
    goesOn (exec (.srTx 0xA5C3) State.reset) = true ∧
      (⟨Vector.replicate 16 true, Vector.replicate 16 true, true, false, false⟩ : Receiver).srclk = false ∧
      97 ≤ 97 ∧ 98 ≤ 98 := by decide +kernel

/-- Both sides of every threshold of R252, and both ends of the frequency range. -/
theorem witness_Pwm :
    State.reset.Idle ∧ (BitVec.toNat (0 : BitVec 32)) = 0 ∧
      ([1, 9, 10, 19, 20, 199, 200, 1999, 2000, 125000000] : List (BitVec 32)).all
        (fun f => decide (f.toNat ≠ 0 ∧ f.toNat * pwmDivider f ≤ State.reset.params.refClkHz)) = true ∧
      State.reset.params.refClkHz < (BitVec.toNat (125000001 : BitVec 32)) * pwmDivider 125000001 := by decide +kernel

/-- A top on each side of the end of its domain. -/
theorem witness_PwmCmpRoundsToNearest :
    124999999 < State.reset.params.refClkHz ∧ State.reset.params.refClkHz ≤ 125000000 := by decide +kernel

theorem witness_Duty :
    (0 : Rat) ≤ 0 ∧ (0 : Rat) ≤ 100 ∧ (100 : Rat) ≤ 100 ∧ (-1 : Rat) < 0 ∧ (100 : Rat) < 201 / 2 := by decide +kernel

theorem witness_TopFitsExceptAtLowFrequencies :
    ([1, 3, 4, 7, 8, 125000000] : List (BitVec 32)).all
      (fun f => decide (1 ≤ f.toNat ∧ f.toNat ≤ 125000000)) = true := by decide +kernel

end Sys2Proof.Tests
end

/-! PROOFS. No unit reads or writes another unit's registers (spec/00_scope.md R2).

The registers of one unit are laid over a state as another state has them. Every shared operation commutes with that,
but for the end of an operation, which removes the transient registers. So a run of another unit, from the state with
the registers laid over it, ends in the same state with the registers laid over it, up to the transient ones. With the
state's own registers laid over it, this says that the run leaves them as they are. -/

namespace Sys2Proof.Machine

/-! ## The registers of a unit, laid over a state -/

/-- `s` with the registers of unit `x` as `r` has them (10_state.md R20). -/
def State.overlay (s : State) (x : BlockUnit) (r : State) : State :=
  match x with
  | .adc => { s with adcPresent := r.adcPresent, adcAddr := r.adcAddr, adcCfg := r.adcCfg, adcPolls := r.adcPolls }
  | .cap => { s with capRate := r.capRate, capDac := r.capDac, capIter := r.capIter }
  | .sr => { s with frame := r.frame, ser := r.ser, srclk := r.srclk, rclk := r.rclk, srIdx := r.srIdx }
  | .pwm => s
  | .noUnit => s

/-- `r` with no transient register (10_state.md R25, R27, R28, R35). -/
def State.quiet (r : State) : State := { r with adcPolls := none, capDac := none, capIter := none, srIdx := none }

/-- A state's own registers laid over it change nothing. -/
theorem overlay_self (s : State) (x : BlockUnit) : s.overlay x s = s := by cases x <;> rfl

/-- `f` before the laying over of registers of unit `x` is `f` after it. -/
abbrev Commutes (x : BlockUnit) (f : State → State) : Prop :=
  ∀ s r : State, f (s.overlay x r) = (f s).overlay x r

/-! ### What belongs to no unit -/

section
variable (s r : State) (x : BlockUnit)

@[simp] theorem overlay_params : (s.overlay x r).params = s.params := by cases x <;> rfl
@[simp] theorem overlay_seq : (s.overlay x r).seq = s.seq := by cases x <;> rfl
@[simp] theorem overlay_busy : (s.overlay x r).busy = s.busy := by cases x <;> rfl
@[simp] theorem overlay_wrTape : (s.overlay x r).wrTape = s.wrTape := by cases x <;> rfl
@[simp] theorem overlay_rdTape : (s.overlay x r).rdTape = s.rdTape := by cases x <;> rfl

/-! ### The shared operations -/

@[simp] theorem goTo_overlay (q : Seq) : goTo (s.overlay x r) q = (goTo s q).overlay x r := by cases x <;> rfl

@[simp] theorem emit_overlay (e : Event) : emit (s.overlay x r) e = (emit s e).overlay x r := by cases x <;> rfl

@[simp] theorem delay_overlay (u : TimeUnit) (n : Nat) : delay u n (s.overlay x r) = (delay u n s).overlay x r :=
  emit_overlay s r x _

@[simp] theorem writeReply_overlay (dev : Addr7) (reg : Byte) (w : Word) :
    writeReply (s.overlay x r) dev reg w = writeReply s dev reg w := by cases x <;> rfl

@[simp] theorem readReply_overlay (dev : Addr7) (reg : Byte) :
    readReply (s.overlay x r) dev reg = readReply s dev reg := by cases x <;> rfl

@[simp] theorem takeWriteReply_overlay : takeWriteReply (s.overlay x r) = (takeWriteReply s).overlay x r := by
  unfold takeWriteReply
  rw [overlay_wrTape]
  split <;> cases x <;> rfl

@[simp] theorem takeReadReply_overlay : takeReadReply (s.overlay x r) = (takeReadReply s).overlay x r := by
  unfold takeReadReply
  rw [overlay_rdTape]
  split <;> cases x <;> rfl

@[simp] theorem afterWrite_overlay (dev : Addr7) (reg : Byte) (w : Word) :
    afterWrite (s.overlay x r) dev reg w = (afterWrite s dev reg w).overlay x r := by
  simp only [afterWrite, takeWriteReply_overlay, writeReply_overlay, emit_overlay]

@[simp] theorem afterRead_overlay (dev : Addr7) (reg : Byte) :
    afterRead (s.overlay x r) dev reg = (afterRead s dev reg).overlay x r := by
  simp only [afterRead, takeReadReply_overlay, readReply_overlay, emit_overlay]

/-- The end of an operation removes the transient registers that were laid over the state (60_exceptions.md R282). -/
theorem finish_overlay (o : OpOutcome) : finish (s.overlay x r) o = (finish s o).overlay x r.quiet := by
  cases x <;> rfl

end

/-! ### What belongs to another unit -/

section
variable {x : BlockUnit} (s r : State)

theorem overlay_adcPresent (hx : x ≠ .adc) : (s.overlay x r).adcPresent = s.adcPresent := by
  cases x with
  | adc => exact absurd rfl hx
  | _ => rfl

theorem overlay_adcAddr (hx : x ≠ .adc) : (s.overlay x r).adcAddr = s.adcAddr := by
  cases x with
  | adc => exact absurd rfl hx
  | _ => rfl

theorem overlay_adcCfg (hx : x ≠ .adc) : (s.overlay x r).adcCfg = s.adcCfg := by
  cases x with
  | adc => exact absurd rfl hx
  | _ => rfl

theorem overlay_adcPolls (hx : x ≠ .adc) : (s.overlay x r).adcPolls = s.adcPolls := by
  cases x with
  | adc => exact absurd rfl hx
  | _ => rfl

theorem overlay_capRate (hx : x ≠ .cap) : (s.overlay x r).capRate = s.capRate := by
  cases x with
  | cap => exact absurd rfl hx
  | _ => rfl

theorem overlay_capDac (hx : x ≠ .cap) : (s.overlay x r).capDac = s.capDac := by
  cases x with
  | cap => exact absurd rfl hx
  | _ => rfl

theorem overlay_capIter (hx : x ≠ .cap) : (s.overlay x r).capIter = s.capIter := by
  cases x with
  | cap => exact absurd rfl hx
  | _ => rfl

theorem overlay_frame (hx : x ≠ .sr) : (s.overlay x r).frame = s.frame := by
  cases x with
  | sr => exact absurd rfl hx
  | _ => rfl

end

/-! ### Writes to a unit's registers, with the registers of another unit laid over the state -/

section
variable {x : BlockUnit}

theorem commutes_goTo (q : Seq) : Commutes x (fun s => goTo s q) := fun s r => goTo_overlay s r x q

theorem commutes_adcConstructed (hx : x ≠ .adc) (addr : Addr7) :
    Commutes x (fun s => { s with adcAddr := addr, adcCfg := s.params.adcDefaultCfg, adcPresent := true }) := by
  intro s r
  cases x with
  | adc => exact absurd rfl hx
  | _ => rfl

theorem commutes_heldAfterWrcfg (hx : x ≠ .adc) (cfg : Option AdcCfg) :
    Commutes x (fun s => heldAfterWrcfg s cfg) := by
  intro s r
  cases x with
  | adc => exact absurd rfl hx
  | _ => cases cfg <;> rfl

theorem commutes_adcPolls (hx : x ≠ .adc) (polls : Option Nat) :
    Commutes x (fun s => { s with adcPolls := polls }) := by
  intro s r
  cases x with
  | adc => exact absurd rfl hx
  | _ => rfl

theorem commutes_capRate (hx : x ≠ .cap) (rate : Rate) : Commutes x (fun s => { s with capRate := rate }) := by
  intro s r
  cases x with
  | cap => exact absurd rfl hx
  | _ => rfl

theorem commutes_capDac (hx : x ≠ .cap) (dac : Option Byte) : Commutes x (fun s => { s with capDac := dac }) := by
  intro s r
  cases x with
  | cap => exact absurd rfl hx
  | _ => rfl

theorem commutes_capIter (hx : x ≠ .cap) (iter : Option Nat) : Commutes x (fun s => { s with capIter := iter }) := by
  intro s r
  cases x with
  | cap => exact absurd rfl hx
  | _ => rfl

theorem commutes_setFrame (hx : x ≠ .sr) (i : Fin 16) (b : Bool) : Commutes x (setFrame i b) := by
  intro s r
  cases x with
  | sr => exact absurd rfl hx
  | _ => rfl

theorem commutes_srIdx (hx : x ≠ .sr) (idx : Option Nat) : Commutes x (fun s => { s with srIdx := idx }) := by
  intro s r
  cases x with
  | sr => exact absurd rfl hx
  | _ => rfl

theorem commutes_pin (hx : x ≠ .sr) (line : Line) (b : Bool) : Commutes x (pin line b) := by
  intro s r
  cases x with
  | sr => exact absurd rfl hx
  | _ => cases line <;> rfl

/-! ### The transmit, and the passed steps of the search -/

theorem commutes_txBit (hx : x ≠ .sr) (at_ : Nat → TxStep → Seq) (w : Word) (i : Nat) :
    Commutes x (fun s => txBit at_ w s i) := by
  intro s r
  simp only [txBit, commutes_srIdx hx _ s r, commutes_pin hx, goTo_overlay, delay_overlay]

theorem commutes_txShift (hx : x ≠ .sr) (at_ : Nat → TxStep → Seq) (w : Word) : Commutes x (txShift at_ w) := by
  intro s r
  unfold txShift
  exact List.foldl_hom (fun s : State => s.overlay x r) fun s i => commutes_txBit hx at_ w i s r

theorem commutes_txLatch (hx : x ≠ .sr) (at_ : Nat → TxStep → Seq) : Commutes x (txLatch at_) := by
  intro s r
  simp only [txLatch, commutes_srIdx hx _ s r, commutes_pin hx, goTo_overlay, delay_overlay]

theorem commutes_transmit (hx : x ≠ .sr) (at_ : Nat → TxStep → Seq) (w : Word) : Commutes x (transmit at_ w) := by
  intro s r
  unfold transmit
  rw [commutes_txShift hx, commutes_txLatch hx]
  exact commutes_srIdx hx none _ r

theorem commutes_transmitFrame (hx : x ≠ .sr) (at_ : Nat → TxStep → Seq) : Commutes x (transmitFrame at_) := by
  intro s r
  unfold transmitFrame
  rw [overlay_frame s r hx, commutes_transmit hx]

theorem commutes_applyLine (hx : x ≠ .sr) (line : Nat) (i : Fin 16) (b : Bool) : Commutes x (applyLine line i b) := by
  intro s r
  unfold applyLine
  rw [goTo_overlay, commutes_setFrame hx, commutes_transmitFrame hx]

theorem commutes_passSteps (ch n : Nat) : Commutes x (passSteps ch n) := by
  intro s r
  unfold passSteps
  exact List.foldl_hom (fun s : State => s.overlay x r) fun s k => goTo_overlay s r x (.capRead ch k)

end

/-! ## Functions that neither write nor read a unit's registers -/

/-- `v` is `t` with the registers of unit `x` laid over it as `r` has them; or without the transient ones, which an
operation that ended in between has removed. -/
def Overlaid (x : BlockUnit) (r t v : State) : Prop := v = t.overlay x r ∨ v = t.overlay x r.quiet

/-- With registers of unit `x` laid over the state, `f` gives what it gives, with the same registers laid over it. -/
def Ignores (x : BlockUnit) (f : State → State) : Prop := ∀ r s, Overlaid x r (f s) (f (s.overlay x r))

/-- A function that commutes with the laying over of registers, before one that ignores them. -/
theorem Ignores.after {x : BlockUnit} {f g : State → State} (hf : Ignores x f) (hg : Commutes x g) :
    Ignores x (fun s => f (g s)) := by
  intro r s
  simp only [hg s r]
  exact hf r (g s)

/-- The end of an operation ignores every unit's registers, the transient ones of which it removes. -/
theorem ignores_raise (x : BlockUnit) (o : OpOutcome) : Ignores x (fun s => raise s o) :=
  fun r s => .inr (finish_overlay s r x o)

theorem ignores_returnOk (x : BlockUnit) (v : Value) : Ignores x (fun s => returnOk s v) :=
  fun r s => .inr (finish_overlay s r x _)

theorem ignores_goTo (x : BlockUnit) (q : Seq) : Ignores x (fun s => goTo s q) :=
  fun r s => .inl (goTo_overlay s r x q)

/-- A write transaction ignores the registers that what follows it ignores. -/
theorem ignores_memWrite {x : BlockUnit} (dev : Addr7) (reg : Byte) (w : Word) {k : State → State}
    (hk : Ignores x k) : Ignores x (fun s => memWrite s dev reg w k) := by
  intro r s
  beta_reduce
  rcases memWrite_cases s dev reg w k with ⟨hr, h⟩ | ⟨e, hr, h⟩
  · rw [h, memWrite_of_ok (by rwa [writeReply_overlay]), afterWrite_overlay]
    exact hk r _
  · rw [h, memWrite_of_err (by rwa [writeReply_overlay]), afterWrite_overlay]
    exact ignores_raise x _ r _

/-- A read transaction ignores the registers that what follows it ignores. -/
theorem ignores_memRead {x : BlockUnit} (dev : Addr7) (reg : Byte) {k : Word → State → State}
    (hk : ∀ w, Ignores x (k w)) : Ignores x (fun s => memRead s dev reg k) := by
  intro r s
  beta_reduce
  rcases memRead_cases s dev reg k with ⟨b0, b1, hr, h⟩ | ⟨e, hr, h⟩
  · rw [h, memRead_of_ok (by rwa [readReply_overlay]), afterRead_overlay]
    exact hk _ r _
  · rw [h, memRead_of_err (by rwa [readReply_overlay]), afterRead_overlay]
    exact ignores_raise x _ r _

/-- The index check ignores the registers that what follows it ignores. -/
theorem ignores_checkIndex {x : BlockUnit} (i : Nat) {k : Fin 16 → State → State} (hk : ∀ i, Ignores x (k i)) :
    Ignores x (fun s => checkIndex i s k) := by
  intro r s
  unfold checkIndex
  split
  · exact hk _ r s
  · exact ignores_raise x _ r s

/-! ### Unit U1 -/

section
variable {x : BlockUnit}

theorem ignores_adcReadSample (hx : x ≠ .adc) (read scale : Seq) : Ignores x (adcReadSample read scale) := by
  intro r s
  simp only [adcReadSample, goTo_overlay, overlay_adcAddr _ _ hx]
  refine ignores_memRead _ _ (fun c r s1 => ?_) r _
  simp only [goTo_overlay, overlay_params, overlay_adcCfg _ _ hx]
  exact ignores_returnOk x _ r _

/-- Step 6 of the poll and what it decides (40_adc.md R140). -/
theorem ignores_adcStep6 (hx : x ≠ .adc) (w : Word) :
    Ignores x (fun s => if readsIdle s.params w then adcReadSample (.adcRdsingle 7) (.adcRdsingle 8) s
      else goTo s (.adcRdsingle 4)) := by
  intro r s
  simp only [overlay_params]
  split
  · exact ignores_adcReadSample hx _ _ r s
  · exact ignores_goTo x _ r s

theorem ignores_adcPoll (hx : x ≠ .adc) (polls : Nat) : Ignores x (adcPoll polls) := by
  intro r s
  simp only [adcPoll, goTo_overlay, overlay_params, overlay_adcAddr _ _ hx]
  split
  · exact ignores_raise x _ r _
  · refine ignores_memRead _ _ (fun w => ?_) r _
    exact ((ignores_adcStep6 hx w).after (commutes_goTo (.adcRdsingle 6))).after
      (commutes_adcPolls hx (some (polls + 1)))

theorem ignores_adcWriteHeld (hx : x ≠ .adc) (cfg : Option AdcCfg) : Ignores x (adcWriteHeld cfg) := by
  intro r s
  simp only [adcWriteHeld, goTo_overlay, commutes_heldAfterWrcfg hx cfg, overlay_params, overlay_adcAddr _ _ hx,
    overlay_adcCfg _ _ hx]
  exact ignores_memWrite _ _ _ ((ignores_returnOk x .none).after (commutes_goTo (.adcWrcfg 4))) r _

theorem ignores_adcSingle (hx : x ≠ .adc) (mux : Option Mux) : Ignores x (adcSingle mux) := by
  intro r s
  simp only [adcSingle, goTo_overlay, overlay_params, overlay_adcAddr _ _ hx, overlay_adcCfg _ _ hx]
  refine ignores_memWrite _ _ _ (fun r s2 => ?_) r _
  exact ((ignores_adcPoll hx 0).after (commutes_adcPolls hx (some 0))).after (commutes_goTo (.adcRdsingle 3)) r s2

/-! ### Unit U2 -/

theorem ignores_measureChannel (hx : x ≠ .cap) (at_ : Nat → Seq) (ch capdac : Nat) {k : Word24 → State → State}
    (hk : ∀ raw, Ignores x (k raw)) : Ignores x (fun s => measureChannel at_ ch capdac s k) := by
  intro r s
  simp only [measureChannel, goTo_overlay, overlay_params]
  refine ignores_memWrite _ _ _ (fun r s1 => ?_) r _
  simp only [goTo_overlay, overlay_params, overlay_capRate _ _ hx]
  refine ignores_memWrite _ _ _ (fun r s2 => ?_) r _
  simp only [goTo_overlay, delay_overlay, overlay_params, overlay_capRate _ _ hx]
  refine ignores_memRead _ _ (fun status r s4 => ?_) r _
  simp only [goTo_overlay, overlay_params]
  split
  · refine ignores_memRead _ _ (fun msb r s6 => ?_) r _
    simp only [goTo_overlay, overlay_params]
    exact ignores_memRead _ _ (fun lsb => (hk _).after (commutes_goTo (at_ 8))) r _
  · exact ignores_raise x _ r _

/-- What a reading decides is carried out: the search ends, or goes back to step 2 (41_cap.md R194 steps 4 to 8). -/
def carryOut (ch : Nat) (raw : Int) (decision : SearchStep) (s : State) : State :=
  match decision with
  | .done r => returnOk (passSteps ch (decisionStep raw decision) s) (.range r)
  | .next d =>
    goTo { passSteps ch (decisionStep raw decision) s with capDac := some (BitVec.ofNat 8 d) } (.capRead ch 2)

/-- A turn of the search is a measurement, and its decision carried out (41_cap.md R194). -/
theorem capSearch_eq_carryOut (ch dac iter : Nat) (s : State) :
    capSearch ch dac iter s =
      if s.params.capSearchLimit = some iter then raise s (.searchNotConverged iter)
      else measureChannel (.capReadMeas ch) ch dac (goTo s (.capRead ch 3)) fun raw s3 =>
        carryOut ch raw.toInt (searchStep s3.params.capDacMax raw.toInt dac) { s3 with capIter := some (iter + 1) } :=
  rfl

theorem ignores_carryOut (hx : x ≠ .cap) (ch : Nat) (raw : Int) (decision : SearchStep) :
    Ignores x (carryOut ch raw decision) := by
  cases decision with
  | done res => exact (ignores_returnOk x _).after (commutes_passSteps ch _)
  | next d =>
    exact ((ignores_goTo x _).after (commutes_capDac hx (some (BitVec.ofNat 8 d)))).after
      (commutes_passSteps ch _)

/-- The decision looks at no more of the state than the ceiling (41_cap.md R195). -/
theorem ignores_decision (hx : x ≠ .cap) (ch dac : Nat) (raw : Int) :
    Ignores x (fun s => carryOut ch raw (searchStep s.params.capDacMax raw dac) s) := by
  intro r s
  simp only [overlay_params]
  exact ignores_carryOut hx ch raw _ r s

theorem ignores_capSearch (hx : x ≠ .cap) (ch dac iter : Nat) : Ignores x (capSearch ch dac iter) := by
  intro r s
  simp only [capSearch_eq_carryOut, overlay_params, goTo_overlay]
  split
  · exact ignores_raise x _ r s
  · refine ignores_measureChannel hx _ ch dac (fun raw r s3 => ?_) r _
    exact (ignores_decision hx ch dac raw.toInt).after (commutes_capIter hx (some (iter + 1))) r s3

end

/-! ## Runs that neither write nor read a unit's registers -/

/-- When `run` answers a next state from `s`, it answers that state with the registers of unit `x` laid over it, from
`s` with them laid over it. -/
def LeavesUnit (x : BlockUnit) (run : State → Result) (s : State) : Prop :=
  ∀ r t : State, run s = .next t → ∃ v, run (s.overlay x r) = .next v ∧ Overlaid x r t v

section
variable {x : BlockUnit} {s : State}

/-- A run that always answers what `f` gives. -/
theorem leavesUnit_of_ignores {f : State → State} (hf : Ignores x f) : LeavesUnit x (fun s => .next (f s)) s := by
  rintro r t ⟨⟩
  exact ⟨_, rfl, hf r s⟩

/-- An operation that only returns a value, which the parameters determine. -/
theorem leavesUnit_returnOk (value : Params → Value) :
    LeavesUnit x (fun s => .next (returnOk (goTo s .single) (value s.params))) s :=
  leavesUnit_of_ignores fun r s => by
    simp only [overlay_params]
    exact (ignores_returnOk x _).after (commutes_goTo .single) r s

/-- An operation that returns what it decodes, or refuses. -/
theorem leavesUnit_decoded {α : Type} {run : State → Result} (decoded : Params → Option α) (value : α → Value)
    (hsome : ∀ s a, decoded s.params = some a → run s = .next (returnOk (goTo s .single) (value a)))
    (hnone : ∀ s, decoded s.params = none → ∃ refusal, run s = .refused refusal) : LeavesUnit x run s := by
  intro r t h
  cases hd : decoded s.params with
  | none =>
    obtain ⟨refusal, hr⟩ := hnone s hd
    cases h.symm.trans hr
  | some a =>
    rw [hsome s a hd] at h
    rw [hsome (s.overlay x r) a (by rwa [overlay_params])]
    exact leavesUnit_returnOk (fun _ => value a) r t h

/-- An operation behind a check of its operands, which looks at no more of the state than the parameters. -/
theorem leavesUnit_checked {need : Params → Result → Result} {dom : Params → Prop}
    (hneed : ∀ {p res t}, need p res = .next t ↔ dom p ∧ res = .next t) {run : State → Result}
    (hrun : LeavesUnit x run s) : LeavesUnit x (fun s => need s.params (run s)) s := by
  intro r t h
  obtain ⟨hdom, h⟩ := hneed.1 h
  obtain ⟨v, hv, hov⟩ := hrun r t h
  exact ⟨v, hneed.2 ⟨by rwa [overlay_params], hv⟩, hov⟩

/-- An operation of the ADC that needs the unit constructed. -/
theorem leavesUnit_needAdc (hx : x ≠ .adc) {f : State → State} (hf : Ignores x f) :
    LeavesUnit x (fun s => needAdc s (f s)) s := by
  intro r t h
  obtain ⟨hp, rfl⟩ := needAdc_eq_next.1 h
  exact ⟨_, needAdc_eq_next.2 ⟨by rwa [overlay_adcPresent _ _ hx], rfl⟩, hf r s⟩

/-! ### The operations -/

theorem leavesUnit_adcNew (hx : x ≠ .adc) (addr : Addr7) : LeavesUnit x (execAdcNew addr) s := by
  unfold execAdcNew
  split
  · exact leavesUnit_of_ignores <|
      ((ignores_returnOk x .none).after (commutes_adcConstructed hx addr)).after (commutes_goTo .single)
  · exact leavesUnit_of_ignores ((ignores_raise x _).after (commutes_goTo .single))

theorem leavesUnit_adcRead (hx : x ≠ .adc) (q q' : Seq) (reg : Byte) (value : Params → Word → Value) :
    LeavesUnit x (fun s => needAdc s (memRead (goTo s q) s.adcAddr reg fun w s1 =>
      returnOk (goTo s1 q') (value s1.params w))) s := by
  refine leavesUnit_needAdc hx fun r s => ?_
  rw [overlay_adcAddr _ _ hx, goTo_overlay]
  refine ignores_memRead _ _ (fun w r s1 => ?_) r _
  rw [overlay_params]
  exact (ignores_returnOk x _).after (commutes_goTo q') r s1

theorem leavesUnit_capMeas (hx : x ≠ .cap) (ch capdac : Nat) : LeavesUnit x (execCapMeas ch capdac) s :=
  leavesUnit_checked (need := fun _ => needChannel ch) needChannel_eq_next <|
    leavesUnit_checked (need := fun p => needCapdac p capdac) needCapdac_eq_next <|
      leavesUnit_of_ignores <| ignores_measureChannel hx _ ch capdac fun _ => ignores_returnOk x _

theorem leavesUnit_capRead (hx : x ≠ .cap) (ch : Nat) : LeavesUnit x (execCapRead ch) s := by
  have hstart := (((ignores_capSearch hx ch 0 0).after (commutes_capIter hx (some 0))).after
    (commutes_capDac hx (some 0))).after (commutes_goTo (.capRead ch 1))
  exact leavesUnit_checked (need := fun _ => needChannel ch) needChannel_eq_next (leavesUnit_of_ignores hstart)

theorem leavesUnit_checkIndex (idx : Nat) (q : Seq) {k : Fin 16 → State → State} (hk : ∀ i, Ignores x (k i)) :
    LeavesUnit x (fun s => .next (checkIndex idx (goTo s q) k)) s :=
  leavesUnit_of_ignores <| (ignores_checkIndex idx hk).after (commutes_goTo q)

/-- An operation that sets one position of the frame and transmits, and then sets it otherwise and transmits. -/
theorem leavesUnit_applyPair (hx : x ≠ .sr) (idx : Nat) (b b' : Bool) :
    LeavesUnit x (fun s => .next (checkIndex idx (goTo s (.srPair 1)) fun i s1 =>
      returnOk (goTo (applyLine 3 i b' (applyLine 2 i b s1)) (.srPair 4)) .none)) s :=
  leavesUnit_checkIndex idx (.srPair 1) fun i => (ignores_returnOk x .none).after fun s r => by
    rw [commutes_applyLine hx, commutes_applyLine hx, goTo_overlay]

theorem leavesUnit_pwmSet (f : BitVec 32) (dutyA dutyB : Rat) (phaseCorrect : Bool) :
    LeavesUnit x (execPwmSet f dutyA dutyB phaseCorrect) s :=
  leavesUnit_checked (need := fun _ => needFrequency f) needFrequency_eq_next <|
    leavesUnit_checked (need := fun p => needQuotient p f) needQuotient_eq_next <|
    leavesUnit_checked (need := fun p => needDuty (p.carried dutyA)) needDuty_eq_next <|
    leavesUnit_checked (need := fun p => needDuty (p.carried dutyB)) needDuty_eq_next <|
    leavesUnit_of_ignores fun r s => by
      simp only [overlay_params, goTo_overlay, emit_overlay]
      exact ignores_returnOk x _ r _

/-- An operation leaves the registers of every unit but its own (00_scope.md R2). -/
theorem exec_leavesUnit (i : Instr) (hx : x ≠ unitOf i) : LeavesUnit x (exec i) s := by
  cases i with
  | adcNew addr => exact leavesUnit_adcNew hx addr
  | adcEnc cfg => exact leavesUnit_returnOk fun p => .word (adcEncode p cfg)
  | adcDec w => exact leavesUnit_returnOk fun p => .cfgStatus (adcDecodeCfg p w) (adcStatus p w)
  | adcWith cfg field value =>
    exact leavesUnit_decoded (fun _ => adcWithField cfg field value) .cfg
      (fun s a h => by simp only [exec, execAdcWith, h])
      fun s h => ⟨.valueNotOfField, by simp only [exec, execAdcWith, h]⟩
  | adcWrcfg cfg => exact leavesUnit_needAdc hx (ignores_adcWriteHeld hx cfg)
  | adcRdcfg => exact leavesUnit_adcRead hx _ _ _ fun p w => .cfgStatus (adcDecodeCfg p w) (adcStatus p w)
  | adcRdsingle mux => exact leavesUnit_needAdc hx (ignores_adcSingle hx mux)
  | adcRdv => exact leavesUnit_needAdc hx (ignores_adcReadSample hx _ _)
  | adcRdy => exact leavesUnit_adcRead hx _ _ _ fun p w => .bool (readsIdle p w)
  | adcScale raw pga => exact leavesUnit_returnOk fun p => .volts (p.carried (adcVolts p raw pga))
  | capEncm meas => exact leavesUnit_returnOk fun p => .word (capEncodeMeas p meas)
  | capDecm w =>
    exact leavesUnit_decoded (fun p => capDecodeMeas p w) .meas (fun s a h => by simp only [exec, execCapDecm, h])
      fun s h => ⟨.codeWithoutValue w, by simp only [exec, execCapDecm, h]⟩
  | capEnct trig => exact leavesUnit_returnOk fun p => .word (capEncodeTrig p trig)
  | capDect w =>
    exact leavesUnit_decoded (fun p => capDecodeTrig p w) .trig (fun s a h => by simp only [exec, execCapDect, h])
      fun s h => ⟨.codeWithoutValue w, by simp only [exec, execCapDect, h]⟩
  | capAsm m l => exact leavesUnit_returnOk fun _ => .raw (capAssemble m l).toInt
  | capSetrate rate =>
    exact leavesUnit_of_ignores <| ((ignores_returnOk x .none).after (commutes_capRate hx rate)).after
      (commutes_goTo .single)
  | capMeas ch capdac => exact leavesUnit_capMeas hx ch capdac
  | capRead ch => exact leavesUnit_capRead hx ch
  | capPf raw capdac =>
    exact leavesUnit_checked (need := fun p => needCapdac p capdac) needCapdac_eq_next <|
      leavesUnit_returnOk fun p => .picofarads (p.carried (capPicofarads p raw capdac))
  | capAf raw capdac =>
    exact leavesUnit_checked (need := fun p => needCapdac p capdac) needCapdac_eq_next <|
      leavesUnit_returnOk fun p => .attofarads (capAttofarads p raw capdac)
  | srSet idx =>
    exact leavesUnit_checkIndex idx .single fun i =>
      (ignores_returnOk x .none).after (commutes_setFrame hx i true)
  | srClr idx =>
    exact leavesUnit_checkIndex idx .single fun i =>
      (ignores_returnOk x .none).after (commutes_setFrame hx i false)
  | srGet idx =>
    exact leavesUnit_checkIndex idx .single fun i r s => by
      rw [overlay_frame s r hx]
      exact ignores_returnOk x _ r s
  | srPack =>
    exact leavesUnit_of_ignores fun r s => by
      rw [overlay_frame s r hx]
      exact (ignores_returnOk x _).after (commutes_goTo .single) r s
  | srTx w => exact leavesUnit_of_ignores <| (ignores_returnOk x .none).after (commutes_transmit hx .srTx w)
  | srFlush =>
    exact leavesUnit_of_ignores <| (ignores_returnOk x .none).after (commutes_transmitFrame hx .srTx)
  | srApplyclr idx => exact leavesUnit_applyPair hx idx true false
  | srClrapply idx => exact leavesUnit_applyPair hx idx false true
  | pwmDiv f =>
    exact leavesUnit_checked (need := fun _ => needFrequency f) needFrequency_eq_next <|
      leavesUnit_returnOk fun _ => .div (pwmDivider f)
  | pwmTop f phaseCorrect =>
    exact leavesUnit_checked (need := fun _ => needFrequency f) needFrequency_eq_next <|
      leavesUnit_checked (need := fun p => needQuotient p f) needQuotient_eq_next <|
      leavesUnit_returnOk fun p => .top (pwmTopOf p f phaseCorrect) (fitFlag p (pwmTopOf p f phaseCorrect))
  | pwmCmp duty top =>
    exact leavesUnit_checked (need := fun p => needDuty (p.carried duty)) needDuty_eq_next <|
      leavesUnit_checked (need := fun p => needTop p top) needTop_eq_next <|
      leavesUnit_returnOk fun p => .compare (pwmCompareOf (p.carried duty) top)
  | pwmSet f dutyA dutyB phaseCorrect => exact leavesUnit_pwmSet f dutyA dutyB phaseCorrect
  | wordAdcConfig cfg status => exact leavesUnit_returnOk fun _ => .cfgStatus cfg status
  | wordAdcConv raw => exact leavesUnit_returnOk fun _ => .raw raw.toInt
  | wordCapConf meas => exact leavesUnit_returnOk fun _ => .meas meas
  | wordCapTrig trig => exact leavesUnit_returnOk fun _ => .trig trig
  | wordCapMsb high => exact leavesUnit_returnOk fun _ => .word high
  | wordCapLsb low => exact leavesUnit_returnOk fun _ => .byte low
  | wordSrFrame frame => exact leavesUnit_returnOk fun _ => .frame frame

/-! ### A turn of a running operation -/

/-- The poll goes on where its label and its count of polls stand (10_state.md R38). -/
theorem resume_of_polling {s : State} {polls : Nat} (hq : s.seq = some (.adcRdsingle 4))
    (hp : s.adcPolls = some polls) : resume s = .next (adcPoll polls s) := by
  simp [resume, hq, hp]

/-- The search goes on where its label, its calibration value and its count of measurements stand
(10_state.md R38). -/
theorem resume_of_searching {s : State} {ch iter : Nat} {dac : Byte} (hq : s.seq = some (.capRead ch 2))
    (hd : s.capDac = some dac) (hi : s.capIter = some iter) (hch : ch ≤ 3) (hmax : dac.toNat ≤ s.params.capDacMax) :
    resume s = .next (capSearch ch dac.toNat iter s) := by
  simp [resume, hq, hd, hi, hch, hmax]

/-- A turn of a running operation leaves the registers of every unit but the one at whose step it stands
(00_scope.md R2). -/
theorem resume_leavesUnit {label : Seq} (hq : s.seq = some label) (hx : x ≠ label.unit) : LeavesUnit x resume s := by
  intro r t h
  rcases resume_cases h with ⟨polls, hs, hp, rfl⟩ | ⟨ch, dac, iter, hs, hd, hi, hch, hmax, rfl⟩
  · obtain rfl : label = .adcRdsingle 4 := Option.some.inj (hq.symm.trans hs)
    exact ⟨_, resume_of_polling (by rwa [overlay_seq]) (by rwa [overlay_adcPolls _ _ hx]), ignores_adcPoll hx polls r s⟩
  · obtain rfl : label = .capRead ch 2 := Option.some.inj (hq.symm.trans hs)
    exact ⟨_, resume_of_searching (by rwa [overlay_seq]) (by rwa [overlay_capDac _ _ hx])
      (by rwa [overlay_capIter _ _ hx]) hch (by rwa [overlay_params]), ignores_capSearch hx ch _ iter r s⟩

/-- A step of a busy block is a turn of its running operation (10_state.md R38). -/
theorem step_of_busy {s : State} (hb : s.busy = true) : step s = resume s := if_pos hb

theorem step_leavesUnit {label : Seq} (hb : s.busy = true) (hq : s.seq = some label) (hx : x ≠ label.unit) :
    LeavesUnit x step s := by
  intro r t h
  rw [step_of_busy (by rwa [overlay_busy])]
  exact resume_leavesUnit hq hx r t ((step_of_busy hb).symm.trans h)

/-- With its own registers laid over it a state is itself, so what a run leaves stands in the state it answers. -/
theorem LeavesUnit.overlaid_self {run : State → Result} {t : State} (h : LeavesUnit x run s) (ht : run s = .next t) :
    Overlaid x s t t := by
  obtain ⟨v, hv, hov⟩ := h s t ht
  rw [overlay_self, ht] at hv
  cases hv
  exact hov

end

/-! ## What the statement says of each unit -/

section
variable {s t : State}

theorem adcRegisters_of_overlaid (h : Overlaid .adc s t t) :
    t.adcPresent = s.adcPresent ∧ t.adcAddr = s.adcAddr ∧ t.adcCfg = s.adcCfg ∧
      (s.adcPolls = none → t.adcPolls = none) := by
  rcases h with h | h
  · exact ⟨(congrArg State.adcPresent h :), (congrArg State.adcAddr h :), (congrArg State.adcCfg h :),
      (congrArg State.adcPolls h).trans⟩
  · exact ⟨(congrArg State.adcPresent h :), (congrArg State.adcAddr h :), (congrArg State.adcCfg h :),
      fun _ => (congrArg State.adcPolls h :)⟩

theorem capRegisters_of_overlaid (h : Overlaid .cap s t t) :
    t.capRate = s.capRate ∧ (s.capDac = none → t.capDac = none) ∧ (s.capIter = none → t.capIter = none) := by
  rcases h with h | h
  · exact ⟨(congrArg State.capRate h :), (congrArg State.capDac h).trans, (congrArg State.capIter h).trans⟩
  · exact ⟨(congrArg State.capRate h :), fun _ => (congrArg State.capDac h :), fun _ => (congrArg State.capIter h :)⟩

theorem srRegisters_of_overlaid (h : Overlaid .sr s t t) :
    t.frame = s.frame ∧ t.ser = s.ser ∧ t.srclk = s.srclk ∧ t.rclk = s.rclk ∧ (s.srIdx = none → t.srIdx = none) := by
  rcases h with h | h
  · exact ⟨(congrArg State.frame h :), (congrArg State.ser h :), (congrArg State.srclk h :), (congrArg State.rclk h :),
      (congrArg State.srIdx h).trans⟩
  · exact ⟨(congrArg State.frame h :), (congrArg State.ser h :), (congrArg State.srclk h :), (congrArg State.rclk h :),
      fun _ => (congrArg State.srIdx h :)⟩

end

/-- A run that leaves every unit but `u` keeps to `u`. -/
theorem keepsToUnit_of_leavesUnit {u : BlockUnit} {run : State → Result} {s : State}
    (h : ∀ x, x ≠ u → LeavesUnit x run s) : KeepsToUnit u run s := by
  intro t ht
  refine ⟨fun hu => ⟨adcRegisters_of_overlaid ((h .adc hu.symm).overlaid_self ht), fun present addr cfg polls => ?_⟩,
    fun hu => ⟨capRegisters_of_overlaid ((h .cap hu.symm).overlaid_self ht), fun rate dac iter => ?_⟩,
    fun hu => ⟨srRegisters_of_overlaid ((h .sr hu.symm).overlaid_self ht), fun frame ser srclk rclk idx => ?_⟩⟩
  · obtain ⟨v, hv, rfl | rfl⟩ := h .adc hu.symm
      { s with adcPresent := present, adcAddr := addr, adcCfg := cfg, adcPolls := polls } t ht
    · exact ⟨_, hv, rfl⟩
    · exact ⟨_, hv, rfl⟩
  · obtain ⟨v, hv, rfl | rfl⟩ := h .cap hu.symm { s with capRate := rate, capDac := dac, capIter := iter } t ht
    · exact ⟨_, hv, rfl⟩
    · exact ⟨_, hv, rfl⟩
  · obtain ⟨v, hv, rfl | rfl⟩ := h .sr hu.symm
      { s with frame := frame, ser := ser, srclk := srclk, rclk := rclk, srIdx := idx } t ht
    · exact ⟨_, hv, rfl⟩
    · exact ⟨_, hv, rfl⟩

/-- Settles O10: every operation, and every turn of a running one, commutes with the laying over of the registers of
each other unit. -/
theorem unitsShareNoState : Obligations.UnitsShareNoState :=
  ⟨fun i _ => keepsToUnit_of_leavesUnit fun _ hx => exec_leavesUnit i hx,
    fun _ _ hb hq => keepsToUnit_of_leavesUnit fun _ hx => step_leavesUnit hb hq hx⟩

end Sys2Proof.Machine

/-! PROOFS. One measurement that the bus port answers throughout (spec/41_cap.md R188): its six events in order, and the
result handed on. The measurement is the same in CAP.MEAS and in CAP.READ, so the rule is stated of what follows it. -/

namespace Sys2Proof.Machine

/-! ## Transactions that the tape answers -/

/-- A taped answer to a write is used up and stands in the event (20_memory.md R55). -/
theorem memWrite_of_tape {s : State} {rest : List WriteReply} (h : s.wrTape = .ok :: rest) (dev : Addr7) (reg : Byte)
    (w : Word) (k : State → State) :
    memWrite s dev reg w k = k { s with
      wrTape := rest, events := s.events ++ [.busWrite dev reg (hiByte w) (loByte w) .ok] } := by
  have hr := writeReply_of_tape h dev reg w
  rw [memWrite_of_ok hr]
  simp only [afterWrite, hr, takeWriteReply, h, emit]

/-- A taped answer to a read is used up and stands in the event, and its two bytes are the word (20_memory.md R52,
R56). -/
theorem memRead_of_tape {s : State} {b0 b1 : Byte} {rest : List ReadReply} (h : s.rdTape = .ok b0 b1 :: rest)
    (dev : Addr7) (reg : Byte) (k : Word → State → State) :
    memRead s dev reg k = k (b0 ++ b1) { s with
      rdTape := rest, events := s.events ++ [.busRead dev reg (.ok b0 b1)] } := by
  have hr := readReply_of_tape h dev reg
  rw [memRead_of_ok hr]
  simp only [afterRead, hr, takeReadReply, h, emit, joinBytes]

/-! ## What a measurement writes and looks at -/

/-- The input of a channel is the one of its number (41_cap.md R170 b). -/
theorem channelInput_eq_getElem (ch : Fin 4) :
    channelInput ch = (#v[.cin1, .cin2, .cin3, .cin4] : Vector CapChannel 4)[ch] := by
  fin_cases ch <;> rfl

/-- The trigger of a measurement sets the one initiate flag of its channel (41_cap.md R188 step 2). -/
theorem measTrigger_eq_set (rate : Rate) (ch : Fin 4) :
    measTrigger rate ch =
      { reset := false, rate := rate, rep := false, init := (Vector.replicate 4 false).set ch true
        done := Vector.replicate 4 false } := by
  fin_cases ch <;> rfl

/-- Every done flag is one bit wide (30_encoding.md R98). -/
theorem done_width_of_valid {p : Params} (hp : p.Valid) (ch : Fin 4) : p.capTrigLayout.done[ch].width = 1 := by
  obtain ⟨-, -, -, -, -, ⟨hwidths, -, -⟩, -⟩ := hp
  simp only [CapTrigLayout.fields, List.map_cons, List.cons.injEq] at hwidths
  fin_cases ch <;> simp_all

/-- A field of one bit is a set flag exactly when its bit is (30_encoding.md R98). -/
theorem flag_eq_getLsbD {f : BitField} (hf : f.width = 1) (w : Word) : f.flag w = w.getLsbD f.lo := by
  simp [BitField.flag, BitField.get, hf, BitVec.getLsbD, Nat.testBit_eq_decide_div_mod_eq, Nat.shiftRight_eq_div_pow,
    beq_eq_decide]

/-- The done flag a measurement looks at is the bit at the flag's place (41_cap.md R188 b). -/
theorem readsDone_eq_doneBit {p : Params} (hp : p.Valid) (ch : Fin 4) (w : Word) :
    readsDone p ch w = doneBit p ch w := by
  have hget : p.capTrigLayout.done[ch.val]? = some p.capTrigLayout.done[ch] := Vector.getElem?_eq_getElem ch.isLt
  simp only [readsDone, hget]
  exact flag_eq_getLsbD (done_width_of_valid hp ch) w

/-- The six events of a measurement, in the words in which the measurement makes them (41_cap.md R188). -/
theorem measureEvents_eq (p : Params) (rate : Rate) (ch : Fin 4) (capdac : Nat) (r1 r2 : WriteReply)
    (r3 r4 r5 : ReadReply) :
    measureEvents p rate ch capdac r1 r2 r3 r4 r5 =
      let conf := capEncodeMeas p (measConfig ch capdac)
      let trig := capEncodeTrig p (measTrigger rate ch)
      [.busWrite p.capDevAddr (regCapConf ch) (hiByte conf) (loByte conf) r1,
        .busWrite p.capDevAddr regCapTrig (hiByte trig) (loByte trig) r2,
        .delay .ms (settleMs rate),
        .busRead p.capDevAddr regCapTrig r3,
        .busRead p.capDevAddr (regCapMsb ch) r4,
        .busRead p.capDevAddr (regCapLsb ch) r5] := by
  have hlsb : regCapLsb ch = BitVec.ofNat 8 (2 * ch + 1) := congrArg (BitVec.ofNat 8) (Nat.add_comm 1 (2 * ch))
  rw [measTrigger_eq_set, measConfig, channelInput_eq_getElem, hlsb]
  rfl

/-! ## The measurement -/

/-- A measurement whose five transactions are answered and whose done flag is set makes its six events in order, and
hands on the assembled result at step 8; nothing else changes but the label (41_cap.md R188). -/
theorem measureChannel_of_answers (at_ : Nat → Seq) {s : State} (ch : Fin 4) (capdac : Nat) {b0 b1 m0 m1 l0 l1 : Byte}
    {ws : List WriteReply} {rs : List ReadReply} (k : Word24 → State → State) (hp : s.params.Valid)
    (hw : s.wrTape = .ok :: .ok :: ws) (hr : s.rdTape = .ok b0 b1 :: .ok m0 m1 :: .ok l0 l1 :: rs)
    (hdone : doneBit s.params ch (b0 ++ b1) = true) :
    measureChannel at_ ch capdac s k = k (capAssemble (m0 ++ m1) (l0 ++ l1)) (goTo { s with
      wrTape := ws
      rdTape := rs
      events := s.events ++
        measureEvents s.params s.capRate ch capdac .ok .ok (.ok b0 b1) (.ok m0 m1) (.ok l0 l1) } (at_ 8)) := by
  have hd : readsDone s.params ch (b0 ++ b1) = true := (readsDone_eq_doneBit hp ch _).trans hdone
  unfold measureChannel
  rw [memWrite_of_tape (rest := .ok :: ws) (by simpa using hw), memWrite_of_tape (rest := ws) (by simp),
    memRead_of_tape (by simpa using hr)]
  simp only [goTo_params, delay_params, hd, if_true]
  rw [memRead_of_tape (b0 := m0) (b1 := m1) (rest := .ok l0 l1 :: rs) (by simp),
    memRead_of_tape (b0 := l0) (b1 := l1) (rest := rs) (by simp)]
  simp only [measureEvents_eq, delay, emit, goTo, List.append_assoc, List.cons_append, List.nil_append]

/-- From an idle state the measurement is all that CAP.MEAS does (41_cap.md R188). -/
theorem execCapMeas_of_answers {s : State} (ch : Fin 4) {capdac : Nat} {b0 b1 m0 m1 l0 l1 : Byte}
    {ws : List WriteReply} {rs : List ReadReply} (hidle : s.Idle) (hp : s.params.Valid)
    (hcapdac : capdac ≤ s.params.capDacMax) (hw : s.wrTape = .ok :: .ok :: ws)
    (hr : s.rdTape = .ok b0 b1 :: .ok m0 m1 :: .ok l0 l1 :: rs) (hdone : doneBit s.params ch (b0 ++ b1) = true) :
    execCapMeas ch capdac s = .next { s with
      wrTape := ws
      rdTape := rs
      events := s.events ++
        measureEvents s.params s.capRate ch capdac .ok .ok (.ok b0 b1) (.ok m0 m1) (.ok l0 l1)
      outcome := some (.ok (.raw (capAssemble (m0 ++ m1) (l0 ++ l1)).toInt)) } := by
  refine needChannel_eq_next.2 ⟨Nat.le_of_lt_succ ch.isLt, needCapdac_eq_next.2 ⟨hcapdac, ?_⟩⟩
  rw [measureChannel_of_answers .capMeas ch capdac _ hp hw hr hdone, returnOk_goTo, returnOk_of_idle]
  exact hidle

/-! ## The words under the default layouts (30_encoding.md R94, R95, R98 to R100) -/

/-- The default configuration word of a measurement (30_encoding.md R94, R95). -/
theorem capEncodeMeas_default (ch : Fin 4) (capdac : Fin 32) :
    capEncodeMeas defaultParams (measConfig ch capdac) = BitVec.ofNat 16 (ch * 8192 + 4 * 1024 + capdac * 32) := by
  revert ch capdac
  decide

/-- The default trigger word of a measurement (30_encoding.md R98 to R100). -/
theorem capEncodeTrig_default (rate : Rate) (ch : Fin 4) :
    capEncodeTrig defaultParams (measTrigger rate ch) = BitVec.ofNat 16 (rateCode rate * 1024 + 2 ^ (7 - ch.val)) := by
  revert ch
  cases rate <;> decide

/-- The default place of a slot's done flag (30_encoding.md R98). -/
theorem doneBit_default (ch : Fin 4) (w : Word) : doneBit defaultParams ch w = w.getLsbD (3 - ch) := by
  fin_cases ch <;> rfl

/-- The two writes of a measurement under the default layouts. -/
theorem measureEvents_default_take (rate : Rate) (ch : Fin 4) {capdac : Nat} (h : capdac ≤ 31) (r1 r2 : WriteReply)
    (r3 r4 r5 : ReadReply) :
    let conf := (defaultMeasureWords rate ch capdac).1
    let trig := (defaultMeasureWords rate ch capdac).2
    (measureEvents defaultParams rate ch capdac r1 r2 r3 r4 r5).take 2 =
      [.busWrite 0x50 (BitVec.ofNat 8 (8 + ch)) (conf.extractLsb' 8 8) (conf.extractLsb' 0 8) r1,
        .busWrite 0x50 0x0C (trig.extractLsb' 8 8) (trig.extractLsb' 0 8) r2] := by
  rw [measureEvents_eq, capEncodeMeas_default ch ⟨capdac, Nat.lt_succ_of_le h⟩, capEncodeTrig_default]
  rfl

/-- Settles O37: the rule of one answered measurement, with CAP.MEAS's checks before it and its return after it. -/
theorem capMeasReturnsTheReading : Obligations.CapMeasReturnsTheReading :=
  ⟨fun ch _ _ _ _ _ _ _ _ _ _ hidle hp hcapdac hw hr hdone =>
    execCapMeas_of_answers ch hidle hp hcapdac hw hr hdone,
    fun rate ch _ r1 r2 r3 r4 r5 w h => ⟨measureEvents_default_take rate ch h r1 r2 r3 r4 r5, doneBit_default ch w⟩⟩

end Sys2Proof.Machine

/-! PROOFS. What every machine step keeps (spec/10_state.md R22, R24, R34, R38; spec/41_cap.md R196), and that no step
from a state that meets the invariant faults.

The invariant has two parts. One speaks of registers that no transaction, delay or label moves, so it holds throughout
an operation (`State.Sound`). The other, on the sequencer, holds again where the operation ends or pauses: the end
removes the transient registers, and the two pauses set them. So every shared operation gets one rule, of what must hold
of the state it hands on for the invariant to hold at the end. -/

namespace Sys2Proof.Machine

/-! ## What transactions, delays and labels leave -/

/-- The state but for what labels, events and the answers of the bus port move (10_state.md R38, 20_memory.md R68). -/
def State.kept (s : State) : State :=
  { s with seq := none, busy := false, events := [], wrTape := [], rdTape := [], oracle := 0 }

@[simp] theorem goTo_kept (s : State) (q : Seq) : (goTo s q).kept = s.kept := rfl

@[simp] theorem emit_kept (s : State) (e : Event) : (emit s e).kept = s.kept := rfl

@[simp] theorem delay_kept (u : TimeUnit) (n : Nat) (s : State) : (delay u n s).kept = s.kept := rfl

@[simp] theorem takeWriteReply_kept (s : State) : (takeWriteReply s).kept = s.kept := by
  unfold takeWriteReply
  split <;> rfl

@[simp] theorem takeReadReply_kept (s : State) : (takeReadReply s).kept = s.kept := by
  unfold takeReadReply
  split <;> rfl

@[simp] theorem afterWrite_kept (s : State) (dev : Addr7) (reg : Byte) (w : Word) :
    (afterWrite s dev reg w).kept = s.kept := by simp [afterWrite]

@[simp] theorem afterRead_kept (s : State) (dev : Addr7) (reg : Byte) : (afterRead s dev reg).kept = s.kept := by
  simp [afterRead]

/-! ## What holds throughout an operation -/

/-- The part of the invariant that an operation keeps at each of its steps, but for the lines while it transmits: valid
parameters, an idle held trigger, a legal address of a constructed unit, low lines, and no transmit. -/
def State.Sound (s : State) : Prop :=
  s.params.Valid ∧ s.adcCfg.os = .idle ∧ (s.adcPresent = true → isAdcAddress s.adcAddr = true) ∧
    (s.ser = false ∧ s.srclk = false ∧ s.rclk = false) ∧ s.srIdx = none

/-- A state in which ADC.RDSINGLE polls or is about to (40_adc.md R140). -/
def State.Polls (s : State) : Prop :=
  s.Sound ∧ s.adcPresent = true ∧ s.capDac = none ∧ s.capIter = none ∧ s.outcome = none

/-- A state in which CAP.READ searches or is about to (41_cap.md R194). -/
def State.Searches (s : State) : Prop := s.Sound ∧ s.adcPolls = none ∧ s.outcome = none

section
variable {s u : State}

theorem State.Sound.of_kept (hs : s.Sound) (h : u.kept = s.kept) : u.Sound :=
  show u.kept.Sound from h ▸ hs

theorem State.Polls.of_kept (hs : s.Polls) (h : u.kept = s.kept) : u.Polls :=
  show u.kept.Polls from h ▸ hs

theorem State.Searches.of_kept (hs : s.Searches) (h : u.kept = s.kept) : u.Searches :=
  show u.kept.Searches from h ▸ hs

theorem State.Sound.goTo (hs : s.Sound) (q : Seq) : (goTo s q).Sound := hs

theorem State.Polls.goTo (hs : s.Polls) (q : Seq) : (goTo s q).Polls := hs

/-- The invariant, in its two parts and the one on the outcome. -/
theorem inv_iff : s.Inv ↔ s.Sound ∧ sequencerOk s = true ∧ (s.busy = true → s.outcome = none) := by
  simp only [State.Inv, State.Sound, and_assoc]

/-! ## Where an operation ends or pauses -/

/-- An operation that is over leaves the invariant (60_exceptions.md R282). -/
theorem inv_finish (hs : s.Sound) (o : OpOutcome) : (finish s o).Inv := by
  obtain ⟨hp, hos, ha, hlines, -⟩ := hs
  exact inv_iff.2 ⟨⟨hp, hos, ha, hlines, rfl⟩, rfl, nofun⟩

theorem inv_raise (hs : s.Sound) (o : OpOutcome) : (raise s o).Inv := inv_finish hs o

theorem inv_returnOk (hs : s.Sound) (v : Value) : (returnOk s v).Inv := inv_finish hs _

/-- The backward transfer of the poll leaves the invariant (40_adc.md R140 step 6). -/
theorem inv_pausedPoll (h : s.Polls) (polls : Nat) :
    (goTo { s with adcPolls := some polls } (.adcRdsingle 4)).Inv := by
  obtain ⟨hs, hp, hd, hi, ho⟩ := h
  exact inv_iff.2 ⟨hs, by simp [sequencerOk, hp, hd, hi], fun _ => ho⟩

/-- The backward transfer of the search leaves the invariant (41_cap.md R194 steps 5 and 6, R196). -/
theorem inv_pausedSearch (h : s.Searches) {ch iter d : Nat} (hch : ch ≤ 3) (hi : s.capIter = some iter)
    (hd : d ≤ s.params.capDacMax) :
    (goTo { s with capDac := some (BitVec.ofNat 8 d) } (.capRead ch 2)).Inv := by
  obtain ⟨hs, hp, ho⟩ := h
  have hbyte : (BitVec.ofNat 8 d).toNat ≤ s.params.capDacMax := by
    rw [BitVec.toNat_ofNat]
    exact (Nat.mod_le _ _).trans hd
  exact inv_iff.2 ⟨hs, by simpa [sequencerOk, hp, hch, hi] using hbyte, fun _ => ho⟩

/-! ## The transactions -/

/-- A write transaction ends the operation, or hands on a state that differs in label, events and answers. -/
theorem inv_memWrite (hs : s.Sound) {dev : Addr7} {reg : Byte} {w : Word} {k : State → State}
    (hk : ∀ u, u.kept = s.kept → (k u).Inv) : (memWrite s dev reg w k).Inv := by
  rcases memWrite_cases s dev reg w k with ⟨-, h⟩ | ⟨e, -, h⟩
  · rw [h]
    exact hk _ (afterWrite_kept ..)
  · rw [h]
    exact inv_raise (hs.of_kept (afterWrite_kept ..)) _

/-- A read transaction ends the operation, or hands on a word and a state that differs in label, events and answers. -/
theorem inv_memRead (hs : s.Sound) {dev : Addr7} {reg : Byte} {k : Word → State → State}
    (hk : ∀ w u, u.kept = s.kept → (k w u).Inv) : (memRead s dev reg k).Inv := by
  rcases memRead_cases s dev reg k with ⟨b0, b1, -, h⟩ | ⟨e, -, h⟩
  · rw [h]
    exact hk _ _ (afterRead_kept ..)
  · rw [h]
    exact inv_raise (hs.of_kept (afterRead_kept ..)) _

/-- The index check ends the operation, or hands the index on (42_shift.md R221). -/
theorem inv_checkIndex (hs : s.Sound) {i : Nat} {k : Fin 16 → State → State} (hk : ∀ i, (k i s).Inv) :
    (checkIndex i s k).Inv := by
  rcases checkIndex_cases i s k with ⟨hi, h⟩ | ⟨-, h⟩
  · rw [h]
    exact hk _
  · rw [h]
    exact inv_raise hs _

/-! ## Unit U1 -/

theorem sound_heldAfterWrcfg (hs : s.Sound) (cfg : Option AdcCfg) : (heldAfterWrcfg s cfg).Sound := by
  obtain ⟨hp, hos, hrest⟩ := hs
  cases cfg with
  | none => exact ⟨hp, hos, hrest⟩
  | some c => exact ⟨hp, rfl, hrest⟩

/-- A unit constructed at a legal address has it, and the default configuration, whose trigger is idle
(40_adc.md R131, 10_state.md R24). -/
theorem sound_adcConstructed (hs : s.Sound) {addr : Addr7} (ha : isAdcAddress addr = true) :
    State.Sound { s with adcAddr := addr, adcCfg := s.params.adcDefaultCfg, adcPresent := true } := by
  obtain ⟨hp, -, -, hrest⟩ := hs
  have hidle : s.params.adcDefaultCfg.os = .idle := by
    obtain ⟨-, -, -, hos, -⟩ := hp
    exact hos
  exact ⟨hp, hidle, fun _ => ha, hrest⟩

theorem inv_adcWriteHeld (hs : s.Sound) (cfg : Option AdcCfg) : (adcWriteHeld cfg s).Inv := by
  have hheld := (sound_heldAfterWrcfg (hs.goTo (.adcWrcfg 1)) cfg).goTo (.adcWrcfg 2)
  exact inv_memWrite (hheld.goTo _) fun u hu => inv_returnOk ((hheld.of_kept hu).goTo _) _

theorem inv_adcReadSample (hs : s.Sound) (read scale : Seq) : (adcReadSample read scale s).Inv :=
  inv_memRead (hs.goTo read) fun _ _ hu => inv_returnOk ((hs.of_kept hu).goTo scale) _

/-- A turn of the poll ends the operation or pauses it at step 4 (40_adc.md R140). -/
theorem inv_adcPoll (h : s.Polls) (polls : Nat) : (adcPoll polls s).Inv := by
  have hs : s.Sound := h.1
  unfold adcPoll
  dsimp only
  split
  · exact inv_raise (hs.goTo _) _
  · refine inv_memRead ((hs.goTo _).goTo _) fun w u hu => ?_
    have hu : u.Polls := h.of_kept hu
    split
    · exact inv_adcReadSample (s := goTo { u with adcPolls := some (polls + 1) } _) hu.1 _ _
    · exact inv_pausedPoll hu (polls + 1)

theorem inv_adcSingle (h : s.Polls) (mux : Option Mux) : (adcSingle mux s).Inv := by
  have h1 := h.goTo (.adcRdsingle 1)
  refine inv_memWrite (h1.1.goTo _) fun u hu => ?_
  have hu : u.Polls := h1.of_kept hu
  exact inv_adcPoll (s := { goTo u (.adcRdsingle 3) with adcPolls := some 0 }) hu 0

/-! ## Unit U2 -/

/-- A measurement ends the operation, or hands on a result and a state that differs in label, events and answers
(41_cap.md R188). -/
theorem inv_measureChannel (hs : s.Sound) (at_ : Nat → Seq) (ch capdac : Nat) {k : Word24 → State → State}
    (hk : ∀ raw u, u.kept = s.kept → (k raw u).Inv) : (measureChannel at_ ch capdac s k).Inv := by
  refine inv_memWrite ((hs.goTo _).goTo _) fun s1 h1 => ?_
  replace h1 : s1.kept = s.kept := h1
  refine inv_memWrite ((hs.of_kept h1).goTo _) fun s2 h2 => ?_
  replace h2 : s2.kept = s.kept := h2.trans h1
  let s3 := delay .ms (settleMs s2.capRate) (goTo s2 (at_ 3))
  have h3 : s3.kept = s.kept := h2
  refine inv_memRead ((hs.of_kept h3).goTo _) fun status s4 h4 => ?_
  replace h4 : s4.kept = s.kept := h4.trans h3
  dsimp only
  split
  · refine inv_memRead (((hs.of_kept h4).goTo _).goTo _) fun msb s6 h6 => ?_
    replace h6 : s6.kept = s.kept := h6.trans h4
    refine inv_memRead ((hs.of_kept h6).goTo _) fun lsb s7 h7 => ?_
    exact hk _ _ (h7.trans h6)
  · exact inv_raise ((hs.of_kept h4).goTo _) _

/-- A decision to go on stays at or below the ceiling (41_cap.md R195, R196). -/
theorem le_ceiling_of_searchStep {ceiling dac d : Nat} {raw : Int} (hdac : dac ≤ ceiling)
    (h : searchStep ceiling raw dac = .next d) : d ≤ ceiling := by
  unfold searchStep at h
  split_ifs at h with _ hup
  · cases h
    exact hup.2
  · cases h
    omega

theorem passSteps_decisionStep_kept (ch : Nat) (raw : Int) (decision : SearchStep) (s : State) :
    (passSteps ch (decisionStep raw decision) s).kept = s.kept := by
  rw [passSteps_eq_goTo ch (decisionStep_bounds raw decision).1, goTo_kept]

/-- The decision of a reading ends the search, or pauses it at step 2 with a value not above the ceiling
(41_cap.md R194, R196). -/
theorem inv_carryOut (h : s.Searches) {ch iter : Nat} (hch : ch ≤ 3) (hi : s.capIter = some iter) (raw : Int)
    {decision : SearchStep} (hd : ∀ d, decision = .next d → d ≤ s.params.capDacMax) :
    (carryOut ch raw decision s).Inv := by
  have hkept := passSteps_decisionStep_kept ch raw decision s
  cases decision with
  | done r => exact inv_returnOk (h.1.of_kept hkept) _
  | next d =>
    have hiter := (congrArg State.capIter hkept :).trans hi
    have hmax : d ≤ (passSteps ch (decisionStep raw (.next d)) s).params.capDacMax :=
      (hd d rfl).trans_eq (congrArg (fun t : State => t.params.capDacMax) hkept :).symm
    exact inv_pausedSearch (h.of_kept hkept) hch hiter hmax

/-- A turn of the search ends the operation or pauses it at step 2 (41_cap.md R194). -/
theorem inv_capSearch (h : s.Searches) {ch dac : Nat} (hch : ch ≤ 3) (hdac : dac ≤ s.params.capDacMax)
    (iter : Nat) : (capSearch ch dac iter s).Inv := by
  have hs : s.Sound := h.1
  rw [capSearch_eq_carryOut]
  split
  · exact inv_raise hs _
  · refine inv_measureChannel (hs.goTo _) _ ch dac fun raw u hu => ?_
    have hp : u.params = s.params := (congrArg State.params hu :)
    have hu : u.Searches := h.of_kept hu
    refine inv_carryOut (s := { u with capIter := some (iter + 1) }) hu hch rfl _ fun d hd => ?_
    exact le_ceiling_of_searchStep (hp ▸ hdac) hd

/-! ## Unit U3 -/

/-- What holds between the bits of a transmit: the clock line is low, and what the transmit does not write is sound
(42_shift.md R228). -/
def State.Shifts (s : State) : Prop :=
  s.params.Valid ∧ s.adcCfg.os = .idle ∧ (s.adcPresent = true → isAdcAddress s.adcAddr = true) ∧
    s.srclk = false

theorem shifts_txBit (h : s.Shifts) (at_ : Nat → TxStep → Seq) (w : Word) (i : Nat) : (txBit at_ w s i).Shifts := by
  obtain ⟨hp, hos, ha, -⟩ := h
  exact ⟨by simpa [txBit] using hp, by simpa [txBit] using hos, by simpa [txBit] using ha, by simp [txBit]⟩

theorem shifts_txShift (h : s.Shifts) (at_ : Nat → TxStep → Seq) (w : Word) : (txShift at_ w s).Shifts :=
  List.foldlRecOn (List.range 16) (txBit at_ w) h fun _ hbit i _ => shifts_txBit hbit at_ w i

/-- A transmit leaves low lines low, and its index ceases to exist (42_shift.md R228, 10_state.md R34, R35). -/
theorem sound_transmit (hs : s.Sound) (at_ : Nat → TxStep → Seq) (w : Word) : (transmit at_ w s).Sound := by
  obtain ⟨hp, hos, ha, ⟨-, hclk, -⟩, -⟩ := hs
  obtain ⟨hp, hos, ha, hclk⟩ := shifts_txShift ⟨hp, hos, ha, hclk⟩ at_ w
  have hlow : (txLatch at_ (txShift at_ w s)).srclk = false := by simpa [txLatch] using hclk
  exact ⟨by simpa [transmit, txLatch] using hp, by simpa [transmit, txLatch] using hos,
    by simpa [transmit, txLatch] using ha, ⟨rfl, hlow, rfl⟩, rfl⟩

theorem sound_setFrame (hs : s.Sound) (i : Fin 16) (b : Bool) : (setFrame i b s).Sound := hs

theorem sound_transmitFrame (hs : s.Sound) (at_ : Nat → TxStep → Seq) : (transmitFrame at_ s).Sound :=
  sound_transmit hs at_ _

theorem sound_applyLine (hs : s.Sound) (line : Nat) (i : Fin 16) (b : Bool) : (applyLine line i b s).Sound :=
  sound_transmitFrame (sound_setFrame (hs.goTo _) i b) _

/-- A composite operation sets one position and transmits, sets it otherwise and transmits (42_shift.md R231, R232). -/
theorem inv_applyPair (hs : s.Sound) (idx : Nat) (b b' : Bool) :
    (checkIndex idx (goTo s (.srPair 1)) fun i s1 =>
      returnOk (goTo (applyLine 3 i b' (applyLine 2 i b s1)) (.srPair 4)) .none).Inv := by
  have hstart := hs.goTo (.srPair 1)
  refine inv_checkIndex hstart fun i => ?_
  exact inv_returnOk ((sound_applyLine (sound_applyLine hstart 2 i b) 3 i b').goTo _) _

end

/-! ## What a run answers -/

/-- The run faults in no case, and a next state that it answers has `P`. -/
def Answers (P : State → Prop) : Result → Prop
  | .next t => P t
  | .fault _ => False
  | .refused _ => True

section
variable {P : State → Prop} {r : Result}

theorem Answers.of_next {t : State} (h : Answers P r) (hr : r = .next t) : P t := by
  subst hr
  exact h

theorem Answers.ne_fault (h : Answers P r) (f : Fault) : r ≠ .fault f := by
  rintro rfl
  exact h

/-! ### The operand checks -/

theorem answers_needAdc {s run : State} (h : s.adcPresent = true → P run) : Answers P (needAdc s run) := by
  unfold needAdc
  split
  · next hp => exact h hp
  · trivial

/-- A check that refuses what is outside a domain: of a channel, a calibration value, a frequency, a quotient, a duty
(60_exceptions.md R285). -/
theorem answers_unless {outside : Prop} [Decidable outside] {refusal : Refusal} (h : ¬ outside → Answers P r) :
    Answers P (if outside then .refused refusal else r) := by
  split
  · trivial
  · next hin => exact h hin

theorem answers_needTop {p : Params} {top : Nat} (h : Answers P r) : Answers P (needTop p top r) := by
  unfold needTop
  split
  · exact h
  · trivial

end

/-! ## The operations -/

section
variable {s : State}

/-- An operation of one step that only returns a value. -/
theorem answers_returnOk (hs : s.Sound) (v : Value) : Answers State.Inv (.next (returnOk (goTo s .single) v)) :=
  inv_returnOk (hs.goTo _) v

theorem answers_adcNew (hs : s.Sound) (addr : Addr7) : Answers State.Inv (execAdcNew addr s) := by
  unfold execAdcNew
  split
  · next ha => exact inv_returnOk (sound_adcConstructed (hs.goTo _) ha) _
  · exact inv_raise (hs.goTo _) _

theorem answers_adcWith (hs : s.Sound) (cfg : AdcCfg) (field : AdcField) (value : AdcFieldValue) :
    Answers State.Inv (execAdcWith cfg field value s) := by
  unfold execAdcWith
  split
  · exact answers_returnOk hs _
  · trivial

theorem answers_capDecm (hs : s.Sound) (w : Word) : Answers State.Inv (execCapDecm w s) := by
  unfold execCapDecm
  split
  · exact answers_returnOk hs _
  · trivial

theorem answers_capDect (hs : s.Sound) (w : Word) : Answers State.Inv (execCapDect w s) := by
  unfold execCapDect
  split
  · exact answers_returnOk hs _
  · trivial

theorem answers_capRead (h : s.Searches) (ch : Nat) : Answers State.Inv (execCapRead ch s) := by
  refine answers_unless fun hch => ?_
  exact inv_capSearch (s := { goTo s (.capRead ch 1) with capDac := some 0, capIter := some 0 }) h
    (not_lt.1 hch) (Nat.zero_le _) 0

/-- Every operation that an idle block accepts keeps the invariant, and none faults. -/
theorem exec_answers_inv (i : Instr) (hs : s.Sound) (hidle : s.Idle) (ho : s.outcome = none) :
    Answers State.Inv (exec i s) := by
  obtain ⟨-, -, hpolls, hdac, hiter, -⟩ := hidle
  cases i with
  | adcNew addr => exact answers_adcNew hs addr
  | adcEnc cfg => exact answers_returnOk hs _
  | adcDec w => exact answers_returnOk hs _
  | adcWith cfg field value => exact answers_adcWith hs cfg field value
  | adcWrcfg cfg => exact answers_needAdc fun _ => inv_adcWriteHeld hs cfg
  | adcRdcfg =>
    exact answers_needAdc fun _ => inv_memRead (hs.goTo _) fun _ _ hu => inv_returnOk ((hs.of_kept hu).goTo _) _
  | adcRdsingle mux => exact answers_needAdc fun hp => inv_adcSingle ⟨hs, hp, hdac, hiter, ho⟩ mux
  | adcRdv => exact answers_needAdc fun _ => inv_adcReadSample hs _ _
  | adcRdy =>
    exact answers_needAdc fun _ => inv_memRead (hs.goTo _) fun _ _ hu => inv_returnOk ((hs.of_kept hu).goTo _) _
  | adcScale raw pga => exact answers_returnOk hs _
  | capEncm meas => exact answers_returnOk hs _
  | capDecm w => exact answers_capDecm hs w
  | capEnct trig => exact answers_returnOk hs _
  | capDect w => exact answers_capDect hs w
  | capAsm m l => exact answers_returnOk hs _
  | capSetrate rate => exact inv_returnOk (s := { goTo s .single with capRate := rate }) hs _
  | capMeas ch capdac =>
    exact answers_unless fun _ => answers_unless fun _ =>
      inv_measureChannel hs _ ch capdac fun _ _ hu => inv_returnOk (hs.of_kept hu) _
  | capRead ch => exact answers_capRead ⟨hs, hpolls, ho⟩ ch
  | capPf raw capdac => exact answers_unless fun _ => answers_returnOk hs _
  | capAf raw capdac => exact answers_unless fun _ => answers_returnOk hs _
  | srSet idx => exact inv_checkIndex (hs.goTo _) fun i => inv_returnOk (sound_setFrame (hs.goTo _) i true) _
  | srClr idx => exact inv_checkIndex (hs.goTo _) fun i => inv_returnOk (sound_setFrame (hs.goTo _) i false) _
  | srGet idx => exact inv_checkIndex (hs.goTo _) fun _ => inv_returnOk (hs.goTo _) _
  | srPack => exact answers_returnOk hs _
  | srTx w => exact inv_returnOk (sound_transmit hs _ w) _
  | srFlush => exact inv_returnOk (sound_transmitFrame hs _) _
  | srApplyclr idx => exact inv_applyPair hs idx true false
  | srClrapply idx => exact inv_applyPair hs idx false true
  | pwmDiv f => exact answers_unless fun _ => answers_returnOk hs _
  | pwmTop f phaseCorrect => exact answers_unless fun _ => answers_unless fun _ => answers_returnOk hs _
  | pwmCmp duty top => exact answers_unless fun _ => answers_needTop (answers_returnOk hs _)
  | pwmSet f dutyA dutyB phaseCorrect =>
    exact answers_unless fun _ => answers_unless fun _ => answers_unless fun _ => answers_unless fun _ =>
      inv_returnOk ((hs.goTo _).of_kept (emit_kept ..)) _
  | wordAdcConfig cfg status => exact answers_returnOk hs _
  | wordAdcConv raw => exact answers_returnOk hs _
  | wordCapConf meas => exact answers_returnOk hs _
  | wordCapTrig trig => exact answers_returnOk hs _
  | wordCapMsb high => exact answers_returnOk hs _
  | wordCapLsb low => exact answers_returnOk hs _
  | wordSrFrame frame => exact answers_returnOk hs _

/-! ## The step -/

/-- A state that meets the invariant is idle, or ADC.RDSINGLE polls at step 4, or CAP.READ searches at step 2 with a
value not above the ceiling (10_state.md R38, 41_cap.md R196). -/
theorem inv_cases (h : s.Inv) :
    (s.Sound ∧ s.Idle) ∨
    (s.busy = true ∧ s.Polls ∧ s.seq = some (.adcRdsingle 4) ∧ ∃ polls, s.adcPolls = some polls) ∨
    ∃ ch dac iter, s.busy = true ∧ s.Searches ∧ s.seq = some (.capRead ch 2) ∧ ch ≤ 3 ∧ s.capDac = some dac ∧
      s.capIter = some iter ∧ dac.toNat ≤ s.params.capDacMax := by
  obtain ⟨hs, hseq, ho⟩ := inv_iff.1 h
  unfold sequencerOk at hseq
  split at hseq
  · next hq =>
    simp only [Bool.and_eq_true, Bool.not_eq_true', Option.isNone_iff_eq_none] at hseq
    obtain ⟨⟨⟨hb, hpolls⟩, hdac⟩, hiter⟩ := hseq
    obtain ⟨-, -, -, -, hidx⟩ := id hs
    exact .inl ⟨hs, hb, hq, hpolls, hdac, hiter, hidx⟩
  · next hq =>
    simp only [Bool.and_eq_true, Option.isNone_iff_eq_none, Option.isSome_iff_exists] at hseq
    obtain ⟨⟨⟨⟨hb, hp⟩, hpolls⟩, hdac⟩, hiter⟩ := hseq
    exact .inr (.inl ⟨hb, ⟨hs, hp, hdac, hiter, ho hb⟩, hq, hpolls⟩)
  · next ch hq =>
    simp only [Bool.and_eq_true, decide_eq_true_eq, Option.isNone_iff_eq_none, Option.isSome_iff_exists] at hseq
    obtain ⟨⟨⟨⟨hb, hch⟩, hpolls⟩, iter, hiter⟩, hdac⟩ := hseq
    split at hdac
    · next dac hd =>
      exact .inr (.inr ⟨ch, dac, iter, hb, ⟨hs, hpolls, ho hb⟩, hq, hch, hd, hiter, of_decide_eq_true hdac⟩)
    · cases hdac
  · cases hseq

/-- The step of an idle block: it stays, refuses, or runs the accepted operation (10_state.md R38). -/
theorem answers_step_of_idle {P : State → Prop} (hb : s.busy = false) (hstay : P s)
    (hexec : ∀ i rest, Answers P (exec i (acceptCommand s rest))) : Answers P (step s) := by
  unfold step
  rw [if_neg (by simp [hb])]
  split
  · exact hstay
  · split
    · exact hexec _ _
    · trivial

/-- Every machine step keeps the invariant, and none faults (10_state.md R38). -/
theorem step_answers_inv (h : s.Inv) : Answers State.Inv (step s) := by
  rcases inv_cases h with ⟨hs, hidle⟩ | ⟨hb, hpoll, hq, polls, hp⟩ | ⟨ch, dac, iter, hb, hsearch, hq, hch, hd, hi, hmax⟩
  · exact answers_step_of_idle hidle.1 h fun i rest => exec_answers_inv i hs hidle rfl
  · rw [step_of_busy hb, resume_of_polling hq hp]
    exact inv_adcPoll hpoll polls
  · rw [step_of_busy hb, resume_of_searching hq hd hi hch hmax]
    exact inv_capSearch hsearch hch hmax iter

end

/-- Settles O8: each shared operation hands on what the invariant asks, up to the end or the pause of the operation. -/
theorem everyStepKeepsTheInvariant : Obligations.EveryStepKeepsTheInvariant :=
  fun _ _ h ht => (step_answers_inv h).of_next ht

/-- Settles O9: a busy state that meets the invariant stands where its operation can go on. -/
theorem invariantStatesNeverFault : Obligations.InvariantStatesNeverFault :=
  fun _ f h => (step_answers_inv h).ne_fault f

end Sys2Proof.Machine

/-! PROOFS. While an operation runs the command port accepts nothing (spec/10_state.md R38): what goes on from a busy
state neither looks at the host's commands nor changes them. That it commutes with a change of the commands says both:
with the state's own commands in their place, it says that they stay. -/

namespace Sys2Proof.Machine

/-- `s` with other commands at the port. -/
def State.withHost (s : State) (cmds : List Command) : State := { s with host := cmds }

/-- `f` does the same whatever commands the host presents, and leaves them. -/
def IgnoresHost (f : State → State) : Prop := ∀ s cmds, f (s.withHost cmds) = (f s).withHost cmds

/-- What ignores the commands leaves them. -/
theorem IgnoresHost.host_eq {f : State → State} (hf : IgnoresHost f) (s : State) : (f s).host = s.host :=
  (congrArg State.host (hf s s.host) :)

/-! ## What is read beside the commands, and the shared operations -/

section
variable (s : State) (cmds : List Command)

@[simp] theorem withHost_params : (s.withHost cmds).params = s.params := rfl
@[simp] theorem withHost_adcAddr : (s.withHost cmds).adcAddr = s.adcAddr := rfl
@[simp] theorem withHost_adcCfg : (s.withHost cmds).adcCfg = s.adcCfg := rfl
@[simp] theorem withHost_capRate : (s.withHost cmds).capRate = s.capRate := rfl

@[simp] theorem goTo_withHost (q : Seq) : goTo (s.withHost cmds) q = (goTo s q).withHost cmds := rfl

@[simp] theorem raise_withHost (o : OpOutcome) : raise (s.withHost cmds) o = (raise s o).withHost cmds := rfl

@[simp] theorem returnOk_withHost (v : Value) : returnOk (s.withHost cmds) v = (returnOk s v).withHost cmds := rfl

@[simp] theorem delay_withHost (u : TimeUnit) (n : Nat) :
    delay u n (s.withHost cmds) = (delay u n s).withHost cmds := rfl

@[simp] theorem writeReply_withHost (dev : Addr7) (reg : Byte) (w : Word) :
    writeReply (s.withHost cmds) dev reg w = writeReply s dev reg w := rfl

@[simp] theorem readReply_withHost (dev : Addr7) (reg : Byte) :
    readReply (s.withHost cmds) dev reg = readReply s dev reg := rfl

@[simp] theorem takeWriteReply_withHost : takeWriteReply (s.withHost cmds) = (takeWriteReply s).withHost cmds := by
  unfold takeWriteReply
  rw [show (s.withHost cmds).wrTape = s.wrTape from rfl]
  split <;> rfl

@[simp] theorem takeReadReply_withHost : takeReadReply (s.withHost cmds) = (takeReadReply s).withHost cmds := by
  unfold takeReadReply
  rw [show (s.withHost cmds).rdTape = s.rdTape from rfl]
  split <;> rfl

theorem afterWrite_withHost (dev : Addr7) (reg : Byte) (w : Word) :
    afterWrite (s.withHost cmds) dev reg w = (afterWrite s dev reg w).withHost cmds := by
  rw [afterWrite, takeWriteReply_withHost, writeReply_withHost]
  rfl

theorem afterRead_withHost (dev : Addr7) (reg : Byte) :
    afterRead (s.withHost cmds) dev reg = (afterRead s dev reg).withHost cmds := by
  rw [afterRead, takeReadReply_withHost, readReply_withHost]
  rfl

end

/-- A write transaction ignores the commands when what follows it does. -/
theorem ignoresHost_memWrite (dev : Addr7) (reg : Byte) (w : Word) {k : State → State} (hk : IgnoresHost k) :
    IgnoresHost fun s => memWrite s dev reg w k := by
  intro s cmds
  beta_reduce
  rcases memWrite_cases s dev reg w k with ⟨hr, h⟩ | ⟨e, hr, h⟩
  · rw [h, memWrite_of_ok ((writeReply_withHost ..).trans hr), afterWrite_withHost]
    exact hk _ cmds
  · rw [h, memWrite_of_err ((writeReply_withHost ..).trans hr), afterWrite_withHost, raise_withHost]

/-- A read transaction ignores the commands when what follows it does. -/
theorem ignoresHost_memRead (dev : Addr7) (reg : Byte) {k : Word → State → State} (hk : ∀ w, IgnoresHost (k w)) :
    IgnoresHost fun s => memRead s dev reg k := by
  intro s cmds
  beta_reduce
  rcases memRead_cases s dev reg k with ⟨b0, b1, hr, h⟩ | ⟨e, hr, h⟩
  · rw [h, memRead_of_ok ((readReply_withHost ..).trans hr), afterRead_withHost]
    exact hk _ _ cmds
  · rw [h, memRead_of_err ((readReply_withHost ..).trans hr), afterRead_withHost, raise_withHost]

/-- A choice that the parameters determine, between two functions that ignore the commands. -/
theorem ignoresHost_ite (c : Params → Prop) [DecidablePred c] {f g : State → State} (hf : IgnoresHost f)
    (hg : IgnoresHost g) : IgnoresHost fun s => if c s.params then f s else g s := by
  intro s cmds
  beta_reduce
  by_cases h : c s.params
  · rw [if_pos ((withHost_params ..).symm ▸ h), if_pos h]
    exact hf s cmds
  · rw [if_neg ((withHost_params ..).symm ▸ h), if_neg h]
    exact hg s cmds

/-! ## The poll (40_adc.md R140) -/

theorem ignoresHost_adcReadSample (read scale : Seq) : IgnoresHost (adcReadSample read scale) := by
  intro s cmds
  simp only [adcReadSample, goTo_withHost, withHost_adcAddr]
  refine ignoresHost_memRead _ _ (fun c s1 cmds => ?_) _ cmds
  simp only [goTo_withHost, withHost_params, withHost_adcCfg, returnOk_withHost]

/-- A turn of the poll ignores the host's commands. -/
theorem ignoresHost_adcPoll (polls : Nat) : IgnoresHost (adcPoll polls) := by
  refine ignoresHost_ite (fun p => p.adcPollLimit = some polls) (fun _ _ => rfl) fun s cmds => ?_
  simp only [goTo_withHost, withHost_adcAddr]
  refine ignoresHost_memRead _ _ (fun w => ?_) _ cmds
  refine ignoresHost_ite (fun p => readsIdle p w) (fun s5 => ?_) fun _ _ => rfl
  exact ignoresHost_adcReadSample _ _ (goTo { s5 with adcPolls := some (polls + 1) } (.adcRdsingle 6))

/-! ## The search (41_cap.md R188, R194) -/

/-- A measurement ignores the commands when what follows it does. -/
theorem ignoresHost_measureChannel (at_ : Nat → Seq) (ch capdac : Nat) {k : Word24 → State → State}
    (hk : ∀ raw, IgnoresHost (k raw)) : IgnoresHost fun s => measureChannel at_ ch capdac s k := by
  intro s cmds
  simp only [measureChannel, goTo_withHost, withHost_params]
  refine ignoresHost_memWrite _ _ _ (fun s1 cmds => ?_) _ cmds
  simp only [goTo_withHost, withHost_params, withHost_capRate]
  refine ignoresHost_memWrite _ _ _ (fun s2 cmds => ?_) _ cmds
  simp only [goTo_withHost, delay_withHost, withHost_params, withHost_capRate]
  refine ignoresHost_memRead _ _ (fun status => ?_) _ cmds
  refine ignoresHost_ite (fun p => readsDone p ch status) (fun s4 cmds => ?_) fun _ _ => rfl
  simp only [goTo_withHost, withHost_params]
  refine ignoresHost_memRead _ _ (fun msb s6 cmds => ?_) _ cmds
  simp only [goTo_withHost, withHost_params]
  exact ignoresHost_memRead _ _ (fun lsb s7 => hk _ (goTo s7 (at_ 8))) _ cmds

theorem ignoresHost_passSteps (ch n : Nat) : IgnoresHost (passSteps ch n) := by
  intro s cmds
  unfold passSteps
  exact List.foldl_hom (fun s : State => s.withHost cmds) fun s k => goTo_withHost s cmds (.capRead ch k)

theorem ignoresHost_carryOut (ch : Nat) (raw : Int) (decision : SearchStep) :
    IgnoresHost (carryOut ch raw decision) := by
  intro s cmds
  unfold carryOut
  simp only [ignoresHost_passSteps ch _ s cmds]
  cases decision <;> rfl

/-- A turn of the search ignores the host's commands. -/
theorem ignoresHost_capSearch (ch dac iter : Nat) : IgnoresHost (capSearch ch dac iter) := by
  rw [funext (capSearch_eq_carryOut ch dac iter)]
  refine ignoresHost_ite (fun p => p.capSearchLimit = some iter) (fun _ _ => rfl) fun s cmds => ?_
  refine ignoresHost_measureChannel _ ch dac (fun raw s3 cmds => ?_) (goTo s (.capRead ch 3)) cmds
  simp only [withHost_params]
  exact ignoresHost_carryOut ch _ _ { s3 with capIter := some (iter + 1) } cmds

/-- A running operation goes on in the same way whatever commands the host presents (10_state.md R38). -/
theorem resume_withHost {s t : State} (h : resume s = .next t) (cmds : List Command) :
    t.host = s.host ∧ resume (s.withHost cmds) = .next (t.withHost cmds) := by
  rcases resume_cases h with ⟨polls, hq, hp, rfl⟩ | ⟨ch, dac, iter, hq, hd, hi, hch, hmax, rfl⟩
  · have hturn := ignoresHost_adcPoll polls
    exact ⟨hturn.host_eq s, by rw [← hturn, resume_of_polling (s := s.withHost cmds) hq hp]⟩
  · have hturn := ignoresHost_capSearch ch dac.toNat iter
    exact ⟨hturn.host_eq s, by rw [← hturn, resume_of_searching (s := s.withHost cmds) hq hd hi hch hmax]⟩

/-- Settles O2: a step of a busy block is a turn of the poll or of the search, and both ignore the commands. -/
theorem busyBlockTakesNoCommand : Obligations.BusyBlockTakesNoCommand := by
  intro s t cmds hb h
  rw [step_of_busy hb] at h
  rw [step_of_busy (s := { s with host := cmds }) hb]
  exact resume_withHost h cmds

end Sys2Proof.Machine

/-! PROOFS. What a run does to the event history (spec/20_memory.md R57, R64, R68), and that it writes no parameter.

A run goes through states that add events to the history, none of them a failed transaction. It pauses in such a state,
or ends there with an outcome that is no bus error, or one more event is a failed transaction, whose error it ends with.
So every shared operation gets one rule, of how a run goes on through it. -/

namespace Sys2Proof.Machine

/-- A run from `s` can stand at `u`: it has written no parameter, handed over no outcome, and added events of which none
is a failed transaction. -/
def Proceeds (s u : State) : Prop :=
  u.params = s.params ∧ u.outcome = s.outcome ∧
    ∃ new, u.events = s.events ++ new ∧ ∀ ev ∈ new, ev.busErrorValue = none

/-- How a run from `s` can come to rest (20_memory.md R57, 60_exceptions.md R282): it pauses; it ends with an outcome
that is no bus error; or a transaction fails, and it ends there with the error of the transaction. -/
inductive RunsTo (s : State) : State → Prop
  | paused {u : State} (h : Proceeds s u) : RunsTo s u
  | ended {u : State} {o : OpOutcome} (h : Proceeds s u) (ho : ∀ e, o ≠ .busError e) : RunsTo s (finish u o)
  | failed {u : State} {ev : Event} {e : Nat} (h : Proceeds s u) (hev : ev.busErrorValue = some e) :
      RunsTo s (raise (emit u ev) (.busError e))

section
variable {s u : State}

/-! ## How a run goes on -/

theorem Proceeds.refl (s : State) : Proceeds s s := ⟨rfl, rfl, [], (List.append_nil _).symm, nofun⟩

/-- An event that is no failed transaction is added. -/
theorem Proceeds.emit (h : Proceeds s u) {ev : Event} (hev : ev.busErrorValue = none) : Proceeds s (emit u ev) := by
  obtain ⟨hp, ho, new, hnew, hok⟩ := h
  refine ⟨hp, ho, new ++ [ev], by simp [hnew], fun e he => ?_⟩
  rcases List.mem_append.1 he with he | he
  · exact hok e he
  · rwa [List.mem_singleton.1 he]

theorem Proceeds.goTo (h : Proceeds s u) (q : Seq) : Proceeds s (goTo u q) := h

theorem Proceeds.delay (h : Proceeds s u) (unit : TimeUnit) (n : Nat) : Proceeds s (delay unit n u) := h.emit rfl

theorem Proceeds.pin (h : Proceeds s u) (line : Line) (b : Bool) : Proceeds s (pin line b u) := by
  have hset : Proceeds s (setLine line b u) := by cases line <;> exact h
  exact hset.emit rfl

theorem Proceeds.takeWriteReply (h : Proceeds s u) : Proceeds s (takeWriteReply u) := by
  simpa [Proceeds] using h

theorem Proceeds.takeReadReply (h : Proceeds s u) : Proceeds s (takeReadReply u) := by
  simpa [Proceeds] using h

/-! ## The end of a run, and the transactions -/

theorem Proceeds.returnOk (h : Proceeds s u) (v : Value) : RunsTo s (returnOk u v) := .ended h nofun

/-- A write transaction ends the run with its error, or hands on a state at which the run can stand
(20_memory.md R55, R57). -/
theorem Proceeds.memWrite (h : Proceeds s u) {dev : Addr7} {reg : Byte} {w : Word} {k : State → State}
    (hk : ∀ v, Proceeds s v → RunsTo s (k v)) : RunsTo s (memWrite u dev reg w k) := by
  rcases memWrite_cases u dev reg w k with ⟨hr, hrun⟩ | ⟨e, hr, hrun⟩
  · rw [hrun]
    exact hk _ (h.takeWriteReply.emit (by rw [hr]; rfl))
  · rw [hrun]
    exact .failed h.takeWriteReply (by rw [hr]; rfl)

/-- A read transaction ends the run with its error, or hands on a word and a state at which the run can stand
(20_memory.md R56, R57). -/
theorem Proceeds.memRead (h : Proceeds s u) {dev : Addr7} {reg : Byte} {k : Word → State → State}
    (hk : ∀ w v, Proceeds s v → RunsTo s (k w v)) : RunsTo s (memRead u dev reg k) := by
  rcases memRead_cases u dev reg k with ⟨b0, b1, hr, hrun⟩ | ⟨e, hr, hrun⟩
  · rw [hrun]
    exact hk _ _ (h.takeReadReply.emit (by rw [hr]; rfl))
  · rw [hrun]
    exact .failed h.takeReadReply (by rw [hr]; rfl)

/-- The index check ends the run, or hands the index on (42_shift.md R221). -/
theorem Proceeds.checkIndex (h : Proceeds s u) {i : Nat} {k : Fin 16 → State → State}
    (hk : ∀ i, RunsTo s (k i u)) : RunsTo s (checkIndex i u k) := by
  rcases checkIndex_cases i u k with ⟨hi, hrun⟩ | ⟨-, hrun⟩
  · rw [hrun]
    exact hk _
  · rw [hrun]
    exact .ended h nofun

/-! ## Unit U1 -/

theorem Proceeds.adcWriteHeld (h : Proceeds s u) (cfg : Option AdcCfg) : RunsTo s (adcWriteHeld cfg u) := by
  have hheld : Proceeds s (heldAfterWrcfg (Machine.goTo u (.adcWrcfg 1)) cfg) := by cases cfg <;> exact h
  exact (hheld.goTo _).memWrite fun v hv => (hv.goTo _).returnOk _

theorem Proceeds.adcReadSample (h : Proceeds s u) (read scale : Seq) : RunsTo s (adcReadSample read scale u) :=
  (h.goTo read).memRead fun _ _ hv => (hv.goTo scale).returnOk _

/-- A turn of the poll: the limit, or a status read, and then the sample or the pause (40_adc.md R140). -/
theorem Proceeds.adcPoll (h : Proceeds s u) (polls : Nat) : RunsTo s (adcPoll polls u) := by
  unfold Machine.adcPoll
  dsimp only
  split
  · exact .ended (h.goTo _) nofun
  · refine (h.goTo _).memRead fun w v hv => ?_
    have h6 : Proceeds s (Machine.goTo { v with adcPolls := some (polls + 1) } (.adcRdsingle 6)) := hv
    split
    · exact h6.adcReadSample _ _
    · exact .paused (h6.goTo _)

theorem Proceeds.adcSingle (h : Proceeds s u) (mux : Option Mux) : RunsTo s (adcSingle mux u) := by
  unfold Machine.adcSingle
  dsimp only
  refine ((h.goTo _).goTo _).memWrite fun v hv => ?_
  have hstart : Proceeds s { Machine.goTo v (.adcRdsingle 3) with adcPolls := some 0 } := hv
  exact hstart.adcPoll 0

/-! ## Unit U2 -/

/-- A measurement ends the run, or hands on a result and a state at which the run can stand (41_cap.md R188). -/
theorem Proceeds.measureChannel (h : Proceeds s u) (at_ : Nat → Seq) (ch capdac : Nat) {k : Word24 → State → State}
    (hk : ∀ raw v, Proceeds s v → RunsTo s (k raw v)) : RunsTo s (measureChannel at_ ch capdac u k) := by
  refine (h.goTo _).memWrite fun s1 h1 => ?_
  refine (h1.goTo _).memWrite fun s2 h2 => ?_
  refine (((h2.goTo _).delay _ _).goTo _).memRead fun status s4 h4 => ?_
  dsimp only
  split
  · refine (h4.goTo _).memRead fun msb s6 h6 => ?_
    refine (h6.goTo _).memRead fun lsb s7 h7 => ?_
    exact hk _ _ (h7.goTo _)
  · exact .ended (h4.goTo _) nofun

/-- What a reading decides ends the run or pauses it (41_cap.md R194). -/
theorem Proceeds.carryOut (h : Proceeds s u) (ch : Nat) (raw : Int) (decision : SearchStep) :
    RunsTo s (carryOut ch raw decision u) := by
  have hpassed : Proceeds s (passSteps ch (decisionStep raw decision) u) := by
    rw [passSteps_eq_goTo ch (decisionStep_bounds raw decision).1]
    exact h.goTo _
  cases decision with
  | done r => exact hpassed.returnOk _
  | next d => exact .paused hpassed

/-- A turn of the search: the limit, or a measurement and what it decides (41_cap.md R194). -/
theorem Proceeds.capSearch (h : Proceeds s u) (ch dac iter : Nat) : RunsTo s (capSearch ch dac iter u) := by
  rw [capSearch_eq_carryOut]
  split
  · exact .ended h nofun
  · refine (h.goTo _).measureChannel _ ch dac fun raw v hv => ?_
    have hcounted : Proceeds s { v with capIter := some (iter + 1) } := hv
    exact hcounted.carryOut ch _ _

/-! ## Unit U3 -/

theorem Proceeds.setSrIdx (h : Proceeds s u) (idx : Option Nat) : Proceeds s { u with srIdx := idx } := h

theorem Proceeds.txBit (h : Proceeds s u) (at_ : Nat → TxStep → Seq) (w : Word) (i : Nat) :
    Proceeds s (txBit at_ w u i) := by
  have hB := ((((h.setSrIdx (some i)).goTo (at_ i .a)).pin .ser (w.getLsbD i)).goTo (at_ i .b)).delay .us tSetup
  have hD := (((hB.goTo (at_ i .c)).pin .srclk true).goTo (at_ i .d)).delay .us tHigh
  exact (((hD.goTo (at_ i .e)).pin .srclk false).goTo (at_ i .f)).delay .us tLow

theorem Proceeds.txShift (h : Proceeds s u) (at_ : Nat → TxStep → Seq) (w : Word) : Proceeds s (txShift at_ w u) :=
  List.foldlRecOn (List.range 16) (Machine.txBit at_ w) h fun _ hbit i _ => hbit.txBit at_ w i

theorem Proceeds.txLatch (h : Proceeds s u) (at_ : Nat → TxStep → Seq) : Proceeds s (txLatch at_ u) := by
  have hH := ((((h.setSrIdx (some 16)).goTo (at_ 16 .g)).pin .ser false).goTo (at_ 16 .h)).pin .rclk true
  exact (((hH.goTo (at_ 16 .i)).delay .us tLatch).goTo (at_ 16 .j)).pin .rclk false

/-- A transmit adds its events, none of them a transaction (42_shift.md R228). -/
theorem Proceeds.transmit (h : Proceeds s u) (at_ : Nat → TxStep → Seq) (w : Word) : Proceeds s (transmit at_ w u) :=
  ((h.txShift at_ w).txLatch at_).setSrIdx none

theorem Proceeds.setFrame (h : Proceeds s u) (i : Fin 16) (b : Bool) : Proceeds s (setFrame i b u) := h

theorem Proceeds.applyLine (h : Proceeds s u) (line : Nat) (i : Fin 16) (b : Bool) :
    Proceeds s (applyLine line i b u) :=
  ((h.goTo _).setFrame i b).transmit _ _

/-- A composite operation: two transmits behind the index check (42_shift.md R231, R232). -/
theorem Proceeds.applyPair (h : Proceeds s u) (idx : Nat) (b b' : Bool) :
    RunsTo s (Machine.checkIndex idx (Machine.goTo u (.srPair 1)) fun i s1 =>
      Machine.returnOk (Machine.goTo (Machine.applyLine 3 i b' (Machine.applyLine 2 i b s1)) (.srPair 4)) .none) :=
  (h.goTo _).checkIndex fun i => ((((h.goTo _).applyLine 2 i b).applyLine 3 i b').goTo _).returnOk _

end

/-! ## The operations and the turns -/

section
variable {s t : State}

/-- An operation of one step that only returns a value. -/
theorem answers_runsTo_returnOk (s : State) (v : Value) : Answers (RunsTo s) (.next (returnOk (goTo s .single) v)) :=
  ((Proceeds.refl s).goTo _).returnOk v

theorem answers_runsTo_adcNew (s : State) (addr : Addr7) : Answers (RunsTo s) (execAdcNew addr s) := by
  have h := Proceeds.refl s
  unfold execAdcNew
  split
  · exact .ended (u := { goTo s .single with
      adcAddr := addr, adcCfg := s.params.adcDefaultCfg, adcPresent := true }) h nofun
  · exact .ended (h.goTo _) nofun

/-- An operation that returns what it decodes, or refuses. -/
theorem answers_runsTo_decoded {α : Type} {r : Result} {decoded : Option α} (value : α → Value) (refusal : Refusal)
    (hsome : ∀ a, decoded = some a → r = .next (returnOk (goTo s .single) (value a)))
    (hnone : decoded = none → r = .refused refusal) : Answers (RunsTo s) r := by
  cases hd : decoded with
  | none =>
    rw [hnone hd]
    trivial
  | some a =>
    rw [hsome a hd]
    exact answers_runsTo_returnOk s _

/-- Every operation that is accepted comes to rest as a run does, and none faults. -/
theorem exec_answers_runsTo (i : Instr) (s : State) : Answers (RunsTo s) (exec i s) := by
  have h := Proceeds.refl s
  cases i with
  | adcNew addr => exact answers_runsTo_adcNew s addr
  | adcEnc | adcDec | adcScale | capEncm | capEnct | capAsm | srPack => exact answers_runsTo_returnOk s _
  | wordAdcConfig | wordAdcConv | wordCapConf | wordCapTrig | wordCapMsb | wordCapLsb | wordSrFrame =>
    exact answers_runsTo_returnOk s _
  | adcWith cfg field value =>
    exact answers_runsTo_decoded (decoded := adcWithField cfg field value) .cfg .valueNotOfField
      (fun a ha => by simp only [exec, execAdcWith, ha]) fun hn => by simp only [exec, execAdcWith, hn]
  | capDecm w =>
    exact answers_runsTo_decoded (decoded := capDecodeMeas s.params w) .meas (.codeWithoutValue w)
      (fun a ha => by simp only [exec, execCapDecm, ha]) fun hn => by simp only [exec, execCapDecm, hn]
  | capDect w =>
    exact answers_runsTo_decoded (decoded := capDecodeTrig s.params w) .trig (.codeWithoutValue w)
      (fun a ha => by simp only [exec, execCapDect, ha]) fun hn => by simp only [exec, execCapDect, hn]
  | adcWrcfg cfg => exact answers_needAdc fun _ => h.adcWriteHeld cfg
  | adcRdcfg | adcRdy => exact answers_needAdc fun _ => (h.goTo _).memRead fun _ _ hv => (hv.goTo _).returnOk _
  | adcRdsingle mux => exact answers_needAdc fun _ => h.adcSingle mux
  | adcRdv => exact answers_needAdc fun _ => h.adcReadSample _ _
  | capSetrate rate => exact Proceeds.returnOk (u := { goTo s .single with capRate := rate }) h _
  | capMeas ch capdac =>
    exact answers_unless fun _ => answers_unless fun _ =>
      h.measureChannel _ ch capdac fun _ _ hv => hv.returnOk _
  | capRead ch =>
    exact answers_unless fun _ =>
      Proceeds.capSearch (u := { goTo s (.capRead ch 1) with capDac := some 0, capIter := some 0 }) h ch 0 0
  | capPf | capAf => exact answers_unless fun _ => answers_runsTo_returnOk s _
  | srSet idx => exact (h.goTo _).checkIndex fun i => ((h.goTo _).setFrame i true).returnOk _
  | srClr idx => exact (h.goTo _).checkIndex fun i => ((h.goTo _).setFrame i false).returnOk _
  | srGet idx => exact (h.goTo _).checkIndex fun _ => (h.goTo _).returnOk _
  | srTx w => exact (h.transmit .srTx w).returnOk _
  | srFlush => exact (h.transmit .srTx (packFrame s.frame)).returnOk _
  | srApplyclr idx => exact h.applyPair idx true false
  | srClrapply idx => exact h.applyPair idx false true
  | pwmDiv f => exact answers_unless fun _ => answers_runsTo_returnOk s _
  | pwmTop f phaseCorrect => exact answers_unless fun _ => answers_unless fun _ => answers_runsTo_returnOk s _
  | pwmCmp duty top => exact answers_unless fun _ => answers_needTop (answers_runsTo_returnOk s _)
  | pwmSet f dutyA dutyB phaseCorrect =>
    exact answers_unless fun _ => answers_unless fun _ => answers_unless fun _ => answers_unless fun _ =>
      ((h.goTo _).emit rfl).returnOk _

/-- A turn of a running operation comes to rest as a run does (10_state.md R38). -/
theorem resume_runsTo (h : resume s = .next t) : RunsTo s t := by
  rcases resume_cases h with ⟨polls, -, -, rfl⟩ | ⟨ch, dac, iter, -, -, -, -, -, rfl⟩
  · exact (Proceeds.refl s).adcPoll polls
  · exact (Proceeds.refl s).capSearch ch _ iter

/-! ## What a run keeps of the history -/

theorem Proceeds.keeps_history_and_params (h : Proceeds s t) : s.events <+: t.events ∧ t.params = s.params := by
  obtain ⟨hp, -, new, hnew, -⟩ := h
  exact ⟨⟨new, hnew.symm⟩, hp⟩

/-- A run adds events to the history and writes no parameter (20_memory.md R64, R68). -/
theorem RunsTo.keeps_history_and_params (h : RunsTo s t) : s.events <+: t.events ∧ t.params = s.params := by
  cases h with
  | paused h => exact h.keeps_history_and_params
  | ended h ho => exact h.keeps_history_and_params
  | failed h hev =>
    obtain ⟨hpre, hp⟩ := h.keeps_history_and_params
    exact ⟨hpre.trans (List.prefix_append _ _), hp⟩

/-! ## A bus error and its transaction -/

/-- Where a run can stand no new event is a failed transaction. -/
theorem Proceeds.busErrorValue_eq_none (h : Proceeds s t) {before later : List Event} {ev : Event}
    (hev : t.events = s.events ++ before ++ ev :: later) : ev.busErrorValue = none := by
  obtain ⟨-, -, new, hnew, hok⟩ := h
  rw [hnew, List.append_assoc, List.append_cancel_left_eq] at hev
  exact hok ev (by simp [hev])

/-- A run that ends with a bus error ends with that of its last event (60_exceptions.md R272, R282). -/
theorem RunsTo.last_of_busError (h : RunsTo s t) {e : Nat} (hs : s.outcome = none)
    (ht : t.outcome = some (.busError e)) :
    t.Idle ∧ ∃ before last, t.events = s.events ++ before ++ [last] ∧ last.busErrorValue = some e := by
  cases h with
  | paused h =>
    obtain ⟨-, ho, -⟩ := h
    cases ht.symm.trans (ho.trans hs)
  | ended h ho => exact absurd (Option.some.inj ht) (ho e)
  | failed h hev =>
    cases ht
    obtain ⟨-, -, new, hnew, -⟩ := h
    exact ⟨idle_finish _ _, new, _, by simp [hnew], hev⟩

/-- A failed transaction is the last event of its run, which ends with its error (20_memory.md R57). -/
theorem RunsTo.busError_of_failed (h : RunsTo s t) {e : Nat} {before later : List Event} {failed : Event}
    (ht : t.events = s.events ++ before ++ failed :: later) (hf : failed.busErrorValue = some e) :
    later = [] ∧ t.outcome = some (.busError e) ∧ t.Idle := by
  cases h with
  | paused h => cases hf.symm.trans (h.busErrorValue_eq_none ht)
  | ended h ho => cases hf.symm.trans (h.busErrorValue_eq_none ht)
  | @failed u ev e' h hev =>
    have ht : u.events ++ [ev] = s.events ++ before ++ failed :: later := ht
    rcases List.eq_nil_or_concat later with rfl | ⟨init, last, rfl⟩
    · obtain ⟨-, hlast⟩ := List.append_inj' ht rfl
      cases hlast
      cases hev.symm.trans hf
      exact ⟨rfl, rfl, idle_finish _ _⟩
    · rw [List.concat_eq_append, ← List.cons_append, ← List.append_assoc] at ht
      cases hf.symm.trans (h.busErrorValue_eq_none (List.append_inj' ht rfl).1)

/-- What comes to rest as a run does ends with a bus error exactly when a transaction failed. -/
theorem busErrorsEndTheRun_of_runsTo {run : State → Result} (h : ∀ t, run s = .next t → RunsTo s t) :
    BusErrorsEndTheRun run s :=
  fun t _ ht => ⟨(h t ht).last_of_busError, fun _ _ _ => (h t ht).busError_of_failed⟩

end

/-- Settles O11: a step stays, or is a run, from the state itself or from the one in which the port has taken the
command. -/
theorem historyGrowsAndParametersStay : Obligations.HistoryGrowsAndParametersStay := by
  intro s t h
  rcases step_cases h with ⟨-, hrun⟩ | ⟨-, -, rfl⟩ | ⟨c, rest, i, -, -, -, hrun⟩
  · exact (resume_runsTo hrun).keeps_history_and_params
  · exact ⟨List.prefix_rfl, rfl⟩
  · exact ((exec_answers_runsTo i (acceptCommand s rest)).of_next hrun).keeps_history_and_params

/-- Settles O14: every operation, and every turn of a running one, comes to rest as a run does. -/
theorem busErrorEndsTheOperation : Obligations.BusErrorEndsTheOperation :=
  ⟨fun i s => busErrorsEndTheRun_of_runsTo fun _ => (exec_answers_runsTo i s).of_next,
    fun _ hb => busErrorsEndTheRun_of_runsTo fun _ ht => resume_runsTo ((step_of_busy hb).symm.trans ht)⟩

end Sys2Proof.Machine

section
/-! PROOFS. Fields and code tables (spec/30_encoding.md R81), for any layout.

A field is read and written bit by bit, so what a packed word holds in a field follows from the fields' being apart. A
code table whose codes differ is inverted by the search for a code. -/

namespace Sys2Proof

/-! ## The bits of a field -/

/-- A bit of a word that holds one code: the code's bit inside the field, 0 outside it. -/
theorem BitField.getLsbD_put (f : BitField) (code i : Nat) :
    (f.put code).getLsbD i =
      (decide (i < 16) && (decide (f.lo ≤ i) && (decide (i - f.lo < f.width) && code.testBit (i - f.lo)))) := by
  rw [BitField.put, BitVec.getLsbD_ofNat, Nat.testBit_shiftLeft, Nat.testBit_mod_two_pow]

/-- A bit of the code a word holds in a field: the word's bit at the field's place. -/
theorem BitField.testBit_get (f : BitField) (w : Word) (i : Nat) :
    (f.get w).testBit i = (decide (i < f.width) && w.getLsbD (f.lo + i)) := by
  rw [BitField.get, Nat.testBit_mod_two_pow, Nat.testBit_shiftRight, BitVec.testBit_toNat]

theorem BitField.get_lt (f : BitField) (w : Word) : f.get w < 2 ^ f.width := Nat.mod_lt _ (Nat.two_pow_pos _)

/-- The code in a field is the number its bits make. -/
theorem BitField.get_eq_toNat_extractLsb' (f : BitField) (w : Word) :
    f.get w = (w.extractLsb' f.lo f.width).toNat := (BitVec.extractLsb'_toNat f.lo f.width w).symm

theorem BitField.get_zero (f : BitField) : f.get 0 = 0 := by simp [BitField.get]

/-- A field is read from two words laid over each other as from each. -/
theorem BitField.get_or (f : BitField) (v w : Word) : f.get (v ||| w) = f.get v ||| f.get w := by
  refine Nat.eq_of_testBit_eq fun i => ?_
  simp only [Nat.testBit_or, testBit_get, BitVec.getLsbD_or, Bool.and_or_distrib_left]

/-- A field that lies in the word gives back the code put into it. -/
theorem BitField.get_put_self {f : BitField} (hf : f.lo + f.width ≤ 16) {code : Nat} (hc : code < 2 ^ f.width) :
    f.get (f.put code) = code := by
  refine Nat.eq_of_testBit_eq fun i => ?_
  rw [testBit_get, getLsbD_put, Nat.add_sub_cancel_left]
  by_cases hi : i < f.width
  · have hword : f.lo + i < 16 := by omega
    simp [hi, hword]
  · have hzero : code.testBit i = false :=
      Nat.testBit_lt_two_pow (hc.trans_le (Nat.pow_le_pow_right two_pos (not_lt.1 hi)))
    simp [hzero]

/-- A field holds nothing of a code that is put into a field apart from it. -/
theorem BitField.get_put_of_disjoint {f g : BitField} (h : f.Disjoint g) (code : Nat) : f.get (g.put code) = 0 := by
  refine Nat.eq_of_testBit_eq fun i => ?_
  rw [testBit_get, getLsbD_put, Nat.zero_testBit]
  have hapart : ¬ (i < f.width ∧ g.lo ≤ f.lo + i ∧ f.lo + i - g.lo < g.width) := by
    unfold BitField.Disjoint at h
    omega
  simp only [not_and_or] at hapart
  rcases hapart with hi | hi | hi <;> simp [hi]

/-! ## Packed words -/

/-- A field apart from all fields of a packed word holds 0 in it. -/
theorem get_packFields_of_disjoint {f : BitField} {entries : List (BitField × Nat)}
    (h : ∀ g ∈ entries.map Prod.fst, f.Disjoint g) : f.get (packFields entries) = 0 := by
  induction entries with
  | nil => exact f.get_zero
  | cons e rest ih =>
    obtain ⟨hhead, hrest⟩ := List.forall_mem_cons.1 h
    rw [packFields, BitField.get_or, BitField.get_put_of_disjoint hhead, ih hrest, Nat.zero_or]

/-- Every field of a packed word holds its code (30_encoding.md R81). -/
theorem get_packFields {fields : List BitField} {widths : List Nat} (hl : layoutOk fields widths)
    {entries : List (BitField × Nat)} (he : entries.map Prod.fst = fields) {f : BitField} {code : Nat}
    (hm : (f, code) ∈ entries) {width : Nat} (hf : f.width = width) (hc : code < 2 ^ width) :
    f.get (packFields entries) = code := by
  subst he hf
  obtain ⟨-, hfit, hapart⟩ := hl
  clear widths
  induction entries with
  | nil => cases hm
  | cons e rest ih =>
    obtain ⟨hhead, hrest⟩ := List.pairwise_cons.1 hapart
    rw [packFields, BitField.get_or]
    rcases List.mem_cons.1 hm with rfl | hm'
    · rw [BitField.get_put_self (hfit f List.mem_cons_self) hc, get_packFields_of_disjoint hhead, Nat.or_zero]
    · have hdisj : f.Disjoint e.1 := (hhead f (List.mem_map_of_mem hm')).symm
      rw [BitField.get_put_of_disjoint hdisj, Nat.zero_or]
      exact ih hm' (fun g hg => hfit g (List.mem_cons_of_mem _ hg)) hrest

/-- A bit of no field is 0 in a packed word (30_encoding.md R81). -/
theorem restIsZero_packFields {fields : List BitField} {entries : List (BitField × Nat)}
    (he : entries.map Prod.fst = fields) : Machine.RestIsZero fields (packFields entries) := by
  subst he
  intro i h
  induction entries with
  | nil => exact BitVec.getLsbD_zero
  | cons e rest ih =>
    obtain ⟨hhead, hrest⟩ := List.forall_mem_cons.1 h
    have hput : (e.1.put e.2).getLsbD i = false := by
      rw [BitField.getLsbD_put]
      have hout : ¬ (e.1.lo ≤ i ∧ i - e.1.lo < e.1.width) := by omega
      rcases not_and_or.1 hout with hi | hi <;> simp [hi]
    rw [packFields, BitVec.getLsbD_or, hput, ih hrest, Bool.or_self]

/-! ## Flags -/

theorem flagCode_lt (b : Bool) : flagCode b < 2 ^ 1 := by cases b <;> decide

/-- A flag is the value of its code. -/
theorem flag_of_get {f : BitField} {w : Word} {b : Bool} (h : f.get w = flagCode b) : f.flag w = b := by
  rw [BitField.flag, h]
  cases b <;> rfl

/-- A flag of a packed word is the one that was put there (30_encoding.md R81, R98). -/
theorem flag_packFields {fields : List BitField} {widths : List Nat} (hl : layoutOk fields widths)
    {entries : List (BitField × Nat)} (he : entries.map Prod.fst = fields) {f : BitField} {b : Bool}
    (hm : (f, flagCode b) ∈ entries) (hf : f.width = 1) : f.flag (packFields entries) = b :=
  flag_of_get (get_packFields hl he hm hf (flagCode_lt b))

theorem osCode_lt (o : Os) : osCode o < 2 ^ 1 := by cases o <;> decide

theorem osCode_eq (o : Os) : osCode o = if o = .start then 1 else 0 := by cases o <;> rfl

/-! ## Code tables -/

section
variable {α : Type} {n width : Nat} {codes : Vector Nat n}

theorem code_lt (h : codesOk width codes) (i : Fin n) : codes[i] < 2 ^ width :=
  h.2 _ (Vector.mem_toList_iff.2 (Vector.getElem_mem i.isLt))

/-- Different values have different codes. -/
theorem code_injective (h : codesOk width codes) : Function.Injective fun i : Fin n => codes[i] := by
  intro i j hij
  have hlist : codes.toList[i.val]'(by simp) = codes.toList[j.val]'(by simp) := by simpa using hij
  exact Fin.ext (h.1.getElem_inj_iff.1 hlist)

/-- A table of as many values as its field has codes leaves no code without a value. -/
theorem exists_code (h : codesOk width codes) (hn : n = 2 ^ width) {code : Nat} (hc : code < 2 ^ width) :
    ∃ i : Fin n, codes[i] = code := by
  have hinj : Function.Injective fun i : Fin n => (⟨codes[i], code_lt h i⟩ : Fin (2 ^ width)) :=
    fun i j hij => code_injective h (Fin.mk.inj_iff.1 hij)
  have hcard : Fintype.card (Fin n) = Fintype.card (Fin (2 ^ width)) := by simp [hn]
  obtain ⟨i, hi⟩ := ((Fintype.bijective_iff_injective_and_card _).2 ⟨hinj, hcard⟩).2 ⟨code, hc⟩
  exact ⟨i, Fin.mk.inj_iff.1 hi⟩

/-- The search for a code finds the one value that has it. -/
theorem codeIndex_eq_some (h : codesOk width codes) {code : Nat} {i : Fin n} :
    codeIndex codes code = some i ↔ codes[i] = code := by
  constructor
  · intro hi
    simpa using List.find?_some hi
  · intro hi
    cases hfound : codeIndex codes code with
    | none =>
      have hnone := List.find?_eq_none.1 hfound i (List.mem_finRange i)
      exact absurd hi (by simpa using hnone)
    | some j =>
      have hj : codes[j] = code := by simpa using List.find?_some hfound
      rw [code_injective h (hj.trans hi.symm)]

/-- `values` lists the values of a type, each at its place (30_encoding.md R81). -/
def Enumerates (index : α → Fin n) (values : Vector α n) : Prop :=
  (∀ v, values[index v] = v) ∧ ∀ i : Fin n, index values[i] = i

variable {index : α → Fin n} {values : Vector α n}

/-- A code stands for the value whose code it is (30_encoding.md R81). -/
theorem valueOfCode_eq_some (hv : Enumerates index values) (h : codesOk width codes) {code : Nat} {v : α} :
    valueOfCode values codes code = some v ↔ codes[index v] = code := by
  rw [valueOfCode, Option.map_eq_some_iff, ← codeIndex_eq_some h]
  constructor
  · rintro ⟨i, hi, rfl⟩
    rwa [hv.2]
  · exact fun hi => ⟨_, hi, hv.1 v⟩

/-- A code stands for no value when it is no value's code (30_encoding.md R112). -/
theorem valueOfCode_eq_none (hv : Enumerates index values) (h : codesOk width codes) {code : Nat} :
    valueOfCode values codes code = none ↔ ∀ v, codes[index v] ≠ code := by
  simp only [Option.eq_none_iff_forall_ne_some, ne_eq, valueOfCode_eq_some hv h]

/-- The value read for a code that some value has, whatever stands in where no value has it. -/
theorem code_getD_valueOfCode (hv : Enumerates index values) (h : codesOk width codes) {code : Nat}
    (hcode : ∃ v, codes[index v] = code) (fallback : α) :
    codes[index ((valueOfCode values codes code).getD fallback)] = code := by
  obtain ⟨v, hc⟩ := hcode
  simpa [(valueOfCode_eq_some hv h).2 hc] using hc

/-- In a table of as many values as its field has codes, the value read from the field has the code that stands there,
whatever stands in where no value has it. -/
theorem code_getD_valueOfCode_get (hv : Enumerates index values) (h : codesOk width codes) (hn : n = 2 ^ width)
    {f : BitField} (hf : f.width = width) {w : Word} (fallback : α) :
    codes[index ((valueOfCode values codes (f.get w)).getD fallback)] = f.get w := by
  obtain ⟨i, hi⟩ := exists_code h hn (hf ▸ f.get_lt w)
  have hvalue : codes[index values[i]] = f.get w := (congrArg (fun j : Fin n => codes[j]) (hv.2 i)).trans hi
  exact code_getD_valueOfCode hv h ⟨_, hvalue⟩ fallback

end

/-! ### The values of the types (30_encoding.md R84 to R91, R95, R99) -/

theorem mux_enumerates : Enumerates Mux.index Mux.values := ⟨by rintro ⟨⟩ <;> rfl, by decide⟩
theorem pga_enumerates : Enumerates Pga.index Pga.values := ⟨by rintro ⟨⟩ <;> rfl, by decide⟩
theorem mode_enumerates : Enumerates Mode.index Mode.values := ⟨by rintro ⟨⟩ <;> rfl, by decide⟩
theorem dr_enumerates : Enumerates Dr.index Dr.values := ⟨by rintro ⟨⟩ <;> rfl, by decide⟩
theorem compMode_enumerates : Enumerates CompMode.index CompMode.values := ⟨by rintro ⟨⟩ <;> rfl, by decide⟩
theorem compPol_enumerates : Enumerates CompPol.index CompPol.values := ⟨by rintro ⟨⟩ <;> rfl, by decide⟩
theorem compLat_enumerates : Enumerates CompLat.index CompLat.values := ⟨by rintro ⟨⟩ <;> rfl, by decide⟩
theorem compQue_enumerates : Enumerates CompQue.index CompQue.values := ⟨by rintro ⟨⟩ <;> rfl, by decide⟩
theorem capChannel_enumerates : Enumerates CapChannel.index CapChannel.values := ⟨by rintro ⟨⟩ <;> rfl, by decide⟩
theorem rate_enumerates : Enumerates Rate.index Rate.values := ⟨by rintro ⟨⟩ <;> rfl, by decide⟩

end Sys2Proof
end

section
/-! PROOFS. The register formats in any valid layout (spec/30_encoding.md R81 to R102): an encoder puts every code at
its field's place, and a decoder reads a word as the value whose codes the word holds. The round-trip laws join the
two. -/

namespace Sys2Proof.Machine

/-! ## The widths of the fields -/

theorem adcLayout_widths {l : AdcLayout} (h : l.Ok) :
    l.os.width = 1 ∧ l.mux.width = 3 ∧ l.pga.width = 3 ∧ l.mode.width = 1 ∧ l.dr.width = 3 ∧ l.compMode.width = 1 ∧
      l.compPol.width = 1 ∧ l.compLat.width = 1 ∧ l.compQue.width = 2 := by
  simpa [AdcLayout.fields] using h.1

theorem capMeasLayout_widths {l : CapMeasLayout} (h : l.Ok) :
    l.cha.width = 3 ∧ l.chb.width = 3 ∧ l.capdac.width = 5 := by
  simpa [CapMeasLayout.fields] using h.1

theorem capTrigLayout_widths {l : CapTrigLayout} (h : l.Ok) :
    l.reset.width = 1 ∧ l.rate.width = 2 ∧ l.rep.width = 1 ∧
      ∀ n : Fin 4, l.init[n].width = 1 ∧ l.done[n].width = 1 := by
  have hw := h.1
  simp only [CapTrigLayout.fields, List.map_cons, List.map_nil, List.cons.injEq] at hw
  obtain ⟨hreset, hrate, hrep, hi0, hi1, hi2, hi3, hd0, hd1, hd2, hd3, -⟩ := hw
  exact ⟨hreset, hrate, hrep, by
    simp [Fin.forall_fin_succ, hi0, hi1, hi2, hi3, hd0, hd1, hd2, hd3]⟩

section
variable {p : Params}

/-! ## ADC_CONFIG -/

/-- ADC.ENC puts the nine codes at their places (40_adc.md R132, 30_encoding.md R81). -/
theorem adcWordHolds_adcEncode (hl : p.adcLayout.Ok) (hc : p.adcCodes.Ok) (c : AdcCfg) :
    AdcWordHolds p c (adcEncode p c) := by
  obtain ⟨hos, hmux, hpga, hmode, hdr, hcompMode, hcompPol, hcompLat, hcompQue⟩ := adcLayout_widths hl
  obtain ⟨cmux, cpga, cmode, cdr, ccompMode, ccompPol, ccompLat, ccompQue⟩ := hc
  rw [AdcWordHolds, ← osCode_eq]
  exact ⟨get_packFields hl rfl (by simp) hos (osCode_lt _), get_packFields hl rfl (by simp) hmux (code_lt cmux _),
    get_packFields hl rfl (by simp) hpga (code_lt cpga _), get_packFields hl rfl (by simp) hmode (code_lt cmode _),
    get_packFields hl rfl (by simp) hdr (code_lt cdr _),
    get_packFields hl rfl (by simp) hcompMode (code_lt ccompMode _),
    get_packFields hl rfl (by simp) hcompPol (code_lt ccompPol _),
    get_packFields hl rfl (by simp) hcompLat (code_lt ccompLat _),
    get_packFields hl rfl (by simp) hcompQue (code_lt ccompQue _)⟩

/-- ADC.DEC reads a word that holds a configuration as that configuration, but for the trigger (40_adc.md R133). -/
theorem adcDecodeCfg_of_holds (hc : p.adcCodes.Ok) {c : AdcCfg} {w : Word} (h : AdcWordHolds p c w) :
    adcDecodeCfg p w = { c with os := .idle } := by
  obtain ⟨cmux, cpga, cmode, cdr, ccompMode, ccompPol, ccompLat, ccompQue⟩ := hc
  obtain ⟨-, hmux, hpga, hmode, hdr, hcompMode, hcompPol, hcompLat, hcompQue⟩ := h
  simp only [adcDecodeCfg, (valueOfCode_eq_some mux_enumerates cmux).2 hmux.symm,
    (valueOfCode_eq_some pga_enumerates cpga).2 hpga.symm, (valueOfCode_eq_some mode_enumerates cmode).2 hmode.symm,
    (valueOfCode_eq_some dr_enumerates cdr).2 hdr.symm,
    (valueOfCode_eq_some compMode_enumerates ccompMode).2 hcompMode.symm,
    (valueOfCode_eq_some compPol_enumerates ccompPol).2 hcompPol.symm,
    (valueOfCode_eq_some compLat_enumerates ccompLat).2 hcompLat.symm,
    (valueOfCode_eq_some compQue_enumerates ccompQue).2 hcompQue.symm, Option.getD_some]

/-- The status is idle when the trigger's bit is set (30_encoding.md R83). -/
theorem adcStatus_of_holds {c : AdcCfg} {w : Word} (h : AdcWordHolds p c w) :
    adcStatus p w = if c.os = .start then .idle else .converting := by
  obtain ⟨hos, -⟩ := h
  rw [adcStatus, hos]
  cases c.os <;> rfl

theorem adcDecodeCfg_adcEncode (hl : p.adcLayout.Ok) (hc : p.adcCodes.Ok) (c : AdcCfg) :
    adcDecodeCfg p (adcEncode p c) = { c with os := .idle } :=
  adcDecodeCfg_of_holds hc (adcWordHolds_adcEncode hl hc c)

theorem adcStatus_adcEncode (hl : p.adcLayout.Ok) (hc : p.adcCodes.Ok) (c : AdcCfg) :
    adcStatus p (adcEncode p c) = if c.os = .start then .idle else .converting :=
  adcStatus_of_holds (adcWordHolds_adcEncode hl hc c)

/-! ## CAP_CONF -/

/-- CAP.ENCM puts the three codes at their places (41_cap.md R180, 30_encoding.md R81). -/
theorem measWordHas_capEncodeMeas (hl : p.capMeasLayout.Ok) (hc : p.capCodes.Ok) (m : MeasCfg) :
    MeasWordHas p m (capEncodeMeas p m) := by
  obtain ⟨hcha, hchb, hcapdac⟩ := capMeasLayout_widths hl
  obtain ⟨cchannel, -⟩ := hc
  exact ⟨get_packFields hl rfl (by simp) hcha (code_lt cchannel _),
    get_packFields hl rfl (by simp) hchb (code_lt cchannel _),
    get_packFields hl rfl (by simp) hcapdac m.capdac.isLt⟩

theorem restIsZero_capEncodeMeas (p : Params) (m : MeasCfg) :
    RestIsZero p.capMeasLayout.fields (capEncodeMeas p m) := restIsZero_packFields rfl

/-- The decoder of a measurement word, field by field (41_cap.md R181). -/
theorem capDecodeMeas_eq_some_iff {w : Word} {m : MeasCfg} :
    capDecodeMeas p w = some m ↔
      valueOfCode CapChannel.values p.capCodes.channel (p.capMeasLayout.cha.get w) = some m.cha ∧
      valueOfCode CapChannel.values p.capCodes.channel (p.capMeasLayout.chb.get w) = some m.chb ∧
      BitVec.ofNat 5 (p.capMeasLayout.capdac.get w) = m.capdac := by
  obtain ⟨cha, chb, capdac⟩ := m
  unfold capDecodeMeas
  split
  · next a b ha hb => simp [ha, hb]
  · next hnone =>
    simp only [reduceCtorEq, false_iff]
    exact fun ⟨ha, hb, _⟩ => hnone _ _ ha hb

/-- CAP.DECM reads a word as a configuration exactly when the word holds the configuration's codes
(41_cap.md R181). -/
theorem capDecodeMeas_eq_some (hl : p.capMeasLayout.Ok) (hc : p.capCodes.Ok) {w : Word} {m : MeasCfg} :
    capDecodeMeas p w = some m ↔ MeasWordHas p m w := by
  obtain ⟨-, -, hcapdac⟩ := capMeasLayout_widths hl
  obtain ⟨cchannel, -⟩ := hc
  have hlt : p.capMeasLayout.capdac.get w < 2 ^ 5 := hcapdac ▸ BitField.get_lt ..
  rw [capDecodeMeas_eq_some_iff, valueOfCode_eq_some capChannel_enumerates cchannel,
    valueOfCode_eq_some capChannel_enumerates cchannel, ← BitVec.toNat_inj, BitVec.toNat_ofNat, Nat.mod_eq_of_lt hlt,
    MeasWordHas, eq_comm (a := p.capCodes.channel[m.cha.index]), eq_comm (a := p.capCodes.channel[m.chb.index])]

/-- Both selector codes of the word stand for channels. -/
def MeasCoded (p : Params) (w : Word) : Prop :=
  (∃ c : CapChannel, p.capCodes.channel[c.index] = p.capMeasLayout.cha.get w) ∧
    ∃ c : CapChannel, p.capCodes.channel[c.index] = p.capMeasLayout.chb.get w

/-- CAP.DECM refuses a word exactly when a selector's code stands for no channel (30_encoding.md R112). -/
theorem capDecodeMeas_eq_none (hc : p.capCodes.Ok) {w : Word} :
    capDecodeMeas p w = none ↔ ¬ MeasCoded p w := by
  obtain ⟨cchannel, -⟩ := hc
  simp only [Option.eq_none_iff_forall_ne_some, ne_eq, capDecodeMeas_eq_some_iff,
    valueOfCode_eq_some capChannel_enumerates cchannel]
  constructor
  · rintro h ⟨⟨a, ha⟩, b, hb⟩
    exact h ⟨a, b, _⟩ ⟨ha, hb, rfl⟩
  · exact fun h m ⟨ha, hb, _⟩ => h ⟨⟨m.cha, ha⟩, m.chb, hb⟩

theorem capDecodeMeas_capEncodeMeas (hl : p.capMeasLayout.Ok) (hc : p.capCodes.Ok) (m : MeasCfg) :
    capDecodeMeas p (capEncodeMeas p m) = some m :=
  (capDecodeMeas_eq_some hl hc).2 (measWordHas_capEncodeMeas hl hc m)

/-! ## CAP_TRIG -/

/-- CAP.ENCT puts the flags and the rate code at their places (41_cap.md R182, 30_encoding.md R81). -/
theorem trigWordHas_capEncodeTrig (hl : p.capTrigLayout.Ok) (hc : p.capCodes.Ok) (t : TrigCfg) :
    TrigWordHas p t (capEncodeTrig p t) := by
  obtain ⟨hreset, hrate, hrep, hflags⟩ := capTrigLayout_widths hl
  obtain ⟨-, crate⟩ := hc
  refine ⟨flag_packFields hl rfl (by simp) hreset, get_packFields hl rfl (by simp) hrate (code_lt crate _),
    flag_packFields hl rfl (by simp) hrep, fun n => ?_⟩
  obtain ⟨hinit, hdone⟩ := hflags n
  fin_cases n <;> exact ⟨flag_packFields hl rfl (by simp) hinit, flag_packFields hl rfl (by simp) hdone⟩

theorem restIsZero_capEncodeTrig (p : Params) (t : TrigCfg) :
    RestIsZero p.capTrigLayout.fields (capEncodeTrig p t) := restIsZero_packFields rfl

theorem map_flag_eq_iff {fields : Vector BitField 4} {w : Word} {flags : Vector Bool 4} :
    fields.map (fun f => f.flag w) = flags ↔ ∀ n : Fin 4, fields[n].flag w = flags[n] := by
  simp [Vector.ext_iff, Fin.forall_iff]

/-- CAP.DECT reads a word as a configuration exactly when the word holds its flags and its rate code
(41_cap.md R183). -/
theorem capDecodeTrig_eq_some (hc : p.capCodes.Ok) {w : Word} {t : TrigCfg} :
    capDecodeTrig p w = some t ↔ TrigWordHas p t w := by
  obtain ⟨-, crate⟩ := hc
  obtain ⟨reset, rate, rep, init, done⟩ := t
  simp only [capDecodeTrig, Option.map_eq_some_iff, valueOfCode_eq_some rate_enumerates crate, TrigWordHas,
    TrigCfg.mk.injEq, map_flag_eq_iff, forall_and]
  constructor
  · rintro ⟨r, hcode, hreset, rfl, hrep, hflags⟩
    exact ⟨hreset, hcode.symm, hrep, hflags⟩
  · rintro ⟨hreset, hcode, hrep, hflags⟩
    exact ⟨rate, hcode.symm, hreset, rfl, hrep, hflags⟩

/-- The word's rate code stands for a rate. -/
def TrigCoded (p : Params) (w : Word) : Prop :=
  ∃ r : Rate, p.capCodes.rate[r.index] = p.capTrigLayout.rate.get w

/-- CAP.DECT refuses a word exactly when its rate code stands for no rate (30_encoding.md R112). -/
theorem capDecodeTrig_eq_none (hc : p.capCodes.Ok) {w : Word} :
    capDecodeTrig p w = none ↔ ¬ TrigCoded p w := by
  obtain ⟨-, crate⟩ := hc
  rw [capDecodeTrig, Option.map_eq_none_iff, valueOfCode_eq_none rate_enumerates crate, TrigCoded, not_exists]

theorem capDecodeTrig_capEncodeTrig (hl : p.capTrigLayout.Ok) (hc : p.capCodes.Ok) (t : TrigCfg) :
    capDecodeTrig p (capEncodeTrig p t) = some t :=
  (capDecodeTrig_eq_some hc).2 (trigWordHas_capEncodeTrig hl hc t)

end

end Sys2Proof.Machine
end

section
/-! PROOFS. The laws of the three register formats, and of the command port: its decoder answers the operation that its
encoder was given (spec/30_encoding.md R81, R93, R110), and refuses a selector outside the operation map (R111). -/

namespace Sys2Proof.Machine

/-! ## The register formats -/

/-- Settles O17: every encoder packs its fields' codes, each at its place. -/
theorem encodersPlaceEveryFieldInAnyLayout : Obligations.EncodersPlaceEveryFieldInAnyLayout := by
  rintro p ⟨-, hadc, hadcCodes, -, hmeas, htrig, hcap, -, -⟩
  exact ⟨adcWordHolds_adcEncode hadc hadcCodes,
    fun m => ⟨measWordHas_capEncodeMeas hmeas hcap m, restIsZero_capEncodeMeas p m⟩,
    fun t => ⟨trigWordHas_capEncodeTrig htrig hcap t, restIsZero_capEncodeTrig p t⟩⟩

/-- Settles O15: each decoder reads what its encoder's word holds. -/
theorem registerCodecsRoundTrip : Obligations.RegisterCodecsRoundTrip := by
  rintro p ⟨-, hadc, hadcCodes, -, hmeas, htrig, hcap, -, -⟩
  refine ⟨adcDecodeCfg_adcEncode hadc hadcCodes, fun c => ?_, capDecodeMeas_capEncodeMeas hmeas hcap,
    capDecodeTrig_capEncodeTrig htrig hcap⟩
  rw [adcStatus_adcEncode hadc hadcCodes]
  cases c.os <;> decide

/-! ## The command port -/

section
variable {p : Params}

/-- A word the device answers decodes to its configuration and its status (30_encoding.md R82, R83). -/
theorem adcDecode_adcEncodeRead (hl : p.adcLayout.Ok) (hc : p.adcCodes.Ok) {c : AdcCfg} (hos : c.os = .idle)
    (status : AdcStatus) :
    adcDecodeCfg p (adcEncodeRead p c status) = c ∧ adcStatus p (adcEncodeRead p c status) = status := by
  rw [adcEncodeRead, adcDecodeCfg_adcEncode hl hc, adcStatus_adcEncode hl hc]
  constructor
  · cases c
    cases hos
    rfl
  · cases status <;> rfl

/-- The top byte of a register word is the byte that was placed above (30_encoding.md R103). -/
theorem hiByte_append (high low : Byte) : hiByte (high ++ low) = high := BitVec.extractLsb'_append_eq_left

/-- A frame is read back from its word bit by bit (30_encoding.md R104). -/
theorem unpackFrame_packFrame (frame : Frame) : unpackFrame (packFrame frame) = frame := by
  refine Vector.ext fun i hi => ?_
  rw [unpackFrame, Vector.getElem_ofFn, packFrame, BitVec.getLsbD_setWidth, BitVec.getLsbD_ofBoolListLE]
  simp [hi]

/-- A command that carries an operation's selector and operands decodes to the operation (30_encoding.md R110). -/
theorem decode_encode_of_row {i : Instr} (h : Laws.OpcodeRow.Statement i) {op : Byte} {args : List Operand}
    (he : encode p i = .op op args) : decode p (encode p i) = .ok i := by
  rw [he, decode, (h p op args he).2]

/-- A register word that is read as a value decodes to the value's row (30_encoding.md R81). -/
theorem decode_reg {fmt : WordFormat} {w : Word} {i : Instr} (h : decodeRegisterWord p fmt w = some i) :
    decode p (.reg fmt w) = .ok i := by
  rw [decode, h]

end

/-- Settles O5: an operation's row is decoded by its selector, and a register word by the round trip of its format. -/
theorem decodeOfEncodeIsIdentity : Obligations.DecodeOfEncodeIsIdentity := by
  rintro p i ⟨-, hadc, hadcCodes, -, hmeas, htrig, hcap, -, -⟩ hi
  cases i with
  | adcNew addr => exact decode_encode_of_row (Laws.OpcodeRow.adcNew addr) rfl
  | adcEnc cfg => exact decode_encode_of_row (Laws.OpcodeRow.adcEnc cfg) rfl
  | adcDec w => exact decode_encode_of_row (Laws.OpcodeRow.adcDec w) rfl
  | adcWith cfg field value => exact decode_encode_of_row (Laws.OpcodeRow.adcWith cfg field value) rfl
  | adcWrcfg cfg => exact decode_encode_of_row (Laws.OpcodeRow.adcWrcfg cfg) rfl
  | adcRdcfg => exact decode_encode_of_row Laws.OpcodeRow.adcRdcfg rfl
  | adcRdsingle mux => exact decode_encode_of_row (Laws.OpcodeRow.adcRdsingle mux) rfl
  | adcRdv => exact decode_encode_of_row Laws.OpcodeRow.adcRdv rfl
  | adcRdy => exact decode_encode_of_row Laws.OpcodeRow.adcRdy rfl
  | adcScale raw pga => exact decode_encode_of_row (Laws.OpcodeRow.adcScale raw pga) rfl
  | capEncm meas => exact decode_encode_of_row (Laws.OpcodeRow.capEncm meas) rfl
  | capDecm w => exact decode_encode_of_row (Laws.OpcodeRow.capDecm w) rfl
  | capEnct trig => exact decode_encode_of_row (Laws.OpcodeRow.capEnct trig) rfl
  | capDect w => exact decode_encode_of_row (Laws.OpcodeRow.capDect w) rfl
  | capAsm m l => exact decode_encode_of_row (Laws.OpcodeRow.capAsm m l) rfl
  | capSetrate rate => exact decode_encode_of_row (Laws.OpcodeRow.capSetrate rate) rfl
  | capMeas ch capdac => exact decode_encode_of_row (Laws.OpcodeRow.capMeas ch capdac) rfl
  | capRead ch => exact decode_encode_of_row (Laws.OpcodeRow.capRead ch) rfl
  | capPf raw capdac => exact decode_encode_of_row (Laws.OpcodeRow.capPf raw capdac) rfl
  | capAf raw capdac => exact decode_encode_of_row (Laws.OpcodeRow.capAf raw capdac) rfl
  | srSet idx => exact decode_encode_of_row (Laws.OpcodeRow.srSet idx) rfl
  | srClr idx => exact decode_encode_of_row (Laws.OpcodeRow.srClr idx) rfl
  | srGet idx => exact decode_encode_of_row (Laws.OpcodeRow.srGet idx) rfl
  | srPack => exact decode_encode_of_row Laws.OpcodeRow.srPack rfl
  | srTx w => exact decode_encode_of_row (Laws.OpcodeRow.srTx w) rfl
  | srFlush => exact decode_encode_of_row Laws.OpcodeRow.srFlush rfl
  | srApplyclr idx => exact decode_encode_of_row (Laws.OpcodeRow.srApplyclr idx) rfl
  | srClrapply idx => exact decode_encode_of_row (Laws.OpcodeRow.srClrapply idx) rfl
  | pwmDiv f => exact decode_encode_of_row (Laws.OpcodeRow.pwmDiv f) rfl
  | pwmTop f phaseCorrect => exact decode_encode_of_row (Laws.OpcodeRow.pwmTop f phaseCorrect) rfl
  | pwmCmp duty top => exact decode_encode_of_row (Laws.OpcodeRow.pwmCmp duty top) rfl
  | pwmSet f dutyA dutyB phaseCorrect =>
    exact decode_encode_of_row (Laws.OpcodeRow.pwmSet f dutyA dutyB phaseCorrect) rfl
  | wordAdcConfig cfg status =>
    obtain ⟨hcfg, hstatus⟩ := adcDecode_adcEncodeRead hadc hadcCodes (of_decide_eq_true hi) status
    exact decode_reg (by rw [decodeRegisterWord, hcfg, hstatus])
  | wordAdcConv raw => exact decode_reg rfl
  | wordCapConf meas =>
    exact decode_reg (by rw [decodeRegisterWord, capDecodeMeas_capEncodeMeas hmeas hcap, Option.map_some])
  | wordCapTrig trig =>
    exact decode_reg (by rw [decodeRegisterWord, capDecodeTrig_capEncodeTrig htrig hcap, Option.map_some])
  | wordCapMsb high => exact decode_reg rfl
  | wordCapLsb low => exact decode_reg (by rw [decodeRegisterWord, hiByte_append])
  | wordSrFrame frame => exact decode_reg (by rw [decodeRegisterWord, unpackFrame_packFrame])

/-! ## Selectors outside the operation map -/

/-- The 32 selectors of the operation map (30_encoding.md R110). -/
theorem isOperation_iff (op : Byte) :
    isOperation op = true ↔ 0x10 ≤ op.toNat ∧ op.toNat ≤ 0x19 ∨ 0x20 ≤ op.toNat ∧ op.toNat ≤ 0x29 ∨
      0x30 ≤ op.toNat ∧ op.toNat ≤ 0x37 ∨ 0x40 ≤ op.toNat ∧ op.toNat ≤ 0x43 := by
  unfold isOperation
  split
  case h_5 h1 h2 h3 h4 =>
    simp only [imp_false] at h1 h2 h3 h4
    simp only [Bool.false_eq_true, false_iff]
    omega
  all_goals
    rw [decide_eq_true_iff]
    omega

/-- Only a selector of the operation map selects an operation (30_encoding.md R110, R111). -/
theorem decodeOperation_eq_none {op : Byte} (h : isOperation op = false) (args : List Operand) :
    decodeOperation op.toNat args = none := by
  rw [← Bool.not_eq_true, isOperation_iff] at h
  unfold decodeOperation
  split
  case h_33 => rfl
  all_goals omega

theorem decode_of_not_isOperation (p : Params) {op : Byte} (h : isOperation op = false) (args : List Operand) :
    decode p (.op op args) = .error (.noOperation op) := by
  simp [decode, decodeOperation_eq_none h, h]

/-- An idle block refuses a command that does not decode (30_encoding.md R111, 60_exceptions.md R285). -/
theorem step_of_decode_error {s : State} {c : Command} {rest : List Command} {r : DecodeReject}
    (hb : s.busy = false) (hh : s.host = c :: rest) (hd : decode s.params c = .error r) :
    step s = .refused (refusalOf r) := by
  simp [step, hb, hh, hd]

/-- Settles O3: no such selector decodes, and the map is counted. -/
theorem unknownSelectorIsRefused : Obligations.UnknownSelectorIsRefused := by
  refine ⟨fun s op args rest hb hh hop => ?_, by decide⟩
  rw [← isOperation_iff, Bool.not_eq_true] at hop
  exact step_of_decode_error hb hh (decode_of_not_isOperation s.params hop args)

end Sys2Proof.Machine
end

section
/-! PROOFS. The codec operations of the command port (spec/40_adc.md R132, R133, spec/41_cap.md R180 to R183): from an
idle state each hands over what its codec gives and changes nothing else. The words themselves are written out under the
default layouts and codes only. -/

namespace Sys2Proof.Machine

/-! ## The operations, from an idle state -/

section
variable {s : State}

/-- An operation of one step that only returns a value changes nothing but the outcome. -/
theorem next_returnOk_goTo_of_idle (h : s.Idle) (q : Seq) (v : Value) :
    (.next (returnOk (goTo s q) v) : Result) = .next { s with outcome := some (.ok v) } := by
  rw [returnOk_goTo, returnOk_of_idle h]

theorem exec_adcEnc_of_idle (h : s.Idle) (c : AdcCfg) :
    exec (.adcEnc c) s = .next { s with outcome := some (.ok (.word (adcEncode s.params c))) } :=
  next_returnOk_goTo_of_idle h _ _

theorem exec_adcDec_of_idle (h : s.Idle) (w : Word) :
    exec (.adcDec w) s = .next { s with
      outcome := some (.ok (.cfgStatus (adcDecodeCfg s.params w) (adcStatus s.params w))) } :=
  next_returnOk_goTo_of_idle h _ _

theorem exec_capEncm_of_idle (h : s.Idle) (m : MeasCfg) :
    exec (.capEncm m) s = .next { s with outcome := some (.ok (.word (capEncodeMeas s.params m))) } :=
  next_returnOk_goTo_of_idle h _ _

theorem exec_capEnct_of_idle (h : s.Idle) (t : TrigCfg) :
    exec (.capEnct t) s = .next { s with outcome := some (.ok (.word (capEncodeTrig s.params t))) } :=
  next_returnOk_goTo_of_idle h _ _

theorem exec_capDecm_of_some (h : s.Idle) {w : Word} {m : MeasCfg} (hd : capDecodeMeas s.params w = some m) :
    exec (.capDecm w) s = .next { s with outcome := some (.ok (.meas m)) } := by
  rw [exec, execCapDecm, hd]
  exact next_returnOk_goTo_of_idle h _ _

theorem exec_capDecm_of_none {w : Word} (hd : capDecodeMeas s.params w = none) :
    exec (.capDecm w) s = .refused (.codeWithoutValue w) := by
  rw [exec, execCapDecm, hd]

theorem exec_capDect_of_some (h : s.Idle) {w : Word} {t : TrigCfg} (hd : capDecodeTrig s.params w = some t) :
    exec (.capDect w) s = .next { s with outcome := some (.ok (.trig t)) } := by
  rw [exec, execCapDect, hd]
  exact next_returnOk_goTo_of_idle h _ _

theorem exec_capDect_of_none {w : Word} (hd : capDecodeTrig s.params w = none) :
    exec (.capDect w) s = .refused (.codeWithoutValue w) := by
  rw [exec, execCapDect, hd]

end

/-! ## The default layouts and codes -/

theorem valid_defaultParams : defaultParams.Valid := by decide

/-! ### ADC_CONFIG -/

/-- By default a value's code is its place in its type (30_encoding.md R84 to R91). -/
theorem adcCodes_default :
    (∀ i : Fin 8, defaultParams.adcCodes.mux[i] = i) ∧ (∀ i : Fin 6, defaultParams.adcCodes.pga[i] = i) ∧
      (∀ i : Fin 2, defaultParams.adcCodes.mode[i] = i) ∧ (∀ i : Fin 8, defaultParams.adcCodes.dr[i] = i) ∧
      (∀ i : Fin 2, defaultParams.adcCodes.compMode[i] = i) ∧ (∀ i : Fin 2, defaultParams.adcCodes.compPol[i] = i) ∧
      (∀ i : Fin 2, defaultParams.adcCodes.compLat[i] = i) ∧ ∀ i : Fin 4, defaultParams.adcCodes.compQue[i] = i := by
  decide

/-- The default layout puts nine codes side by side (30_encoding.md R82). -/
theorem packFields_default_adc (os mux pga mode dr compMode compPol compLat compQue : Nat) :
    packFields [(⟨15, 1⟩, os), (⟨12, 3⟩, mux), (⟨9, 3⟩, pga), (⟨8, 1⟩, mode), (⟨5, 3⟩, dr), (⟨4, 1⟩, compMode),
      (⟨3, 1⟩, compPol), (⟨2, 1⟩, compLat), (⟨0, 2⟩, compQue)] =
    (BitVec.ofNat 1 os ++ BitVec.ofNat 3 mux ++ BitVec.ofNat 3 pga ++ BitVec.ofNat 1 mode ++ BitVec.ofNat 3 dr ++
      BitVec.ofNat 1 compMode ++ BitVec.ofNat 1 compPol ++ BitVec.ofNat 1 compLat ++
      BitVec.ofNat 2 compQue : Word) := by
  refine BitVec.eq_of_getLsbD_eq fun i hi => ?_
  simp only [packFields, BitVec.getLsbD_or, BitField.getLsbD_put, BitVec.getLsbD_append, BitVec.getLsbD_ofNat]
  interval_cases i <;> simp

/-- The default CONFIG word (40_adc.md R132). -/
theorem adcEncode_default (c : AdcCfg) :
    adcEncode defaultParams c =
      (BitVec.ofNat 1 (if c.os = .start then 1 else 0) ++ BitVec.ofNat 3 c.mux.index ++ BitVec.ofNat 3 c.pga.index ++
        BitVec.ofNat 1 c.mode.index ++ BitVec.ofNat 3 c.dr.index ++ BitVec.ofNat 1 c.compMode.index ++
        BitVec.ofNat 1 c.compPol.index ++ BitVec.ofNat 1 c.compLat.index ++
        BitVec.ofNat 2 c.compQue.index : Word) := by
  obtain ⟨hmux, hpga, hmode, hdr, hcompMode, hcompPol, hcompLat, hcompQue⟩ := adcCodes_default
  rw [adcEncode, osCode_eq, hmux, hpga, hmode, hdr, hcompMode, hcompPol, hcompLat, hcompQue]
  exact packFields_default_adc ..

/-! ### CAP_CONF -/

theorem channelCode_default (c : CapChannel) : defaultParams.capCodes.channel[c.index] = channelCode c := by
  cases c <;> rfl

/-- Of the eight codes that fit a selector, 5 and 6 stand for no channel (30_encoding.md R95). -/
theorem exists_channelCode_iff {a : Nat} (ha : a < 8) : (∃ c, channelCode c = a) ↔ ¬ (a = 5 ∨ a = 6) := by
  constructor
  · rintro ⟨c, rfl⟩
    cases c <;> decide
  · intro h
    rcases (by omega : a = 0 ∨ a = 1 ∨ a = 2 ∨ a = 3 ∨ a = 4 ∨ a = 7) with rfl | rfl | rfl | rfl | rfl | rfl
    exacts [⟨.cin1, rfl⟩, ⟨.cin2, rfl⟩, ⟨.cin3, rfl⟩, ⟨.cin4, rfl⟩, ⟨.capdac, rfl⟩, ⟨.disabled, rfl⟩]

/-- The default measurement word (41_cap.md R180). -/
theorem capEncodeMeas_defaultParams (m : MeasCfg) :
    capEncodeMeas defaultParams m =
      (BitVec.ofNat 3 (channelCode m.cha) ++ BitVec.ofNat 3 (channelCode m.chb) ++ m.capdac ++ 0#5 : Word) := by
  rw [capEncodeMeas, channelCode_default, channelCode_default]
  refine BitVec.eq_of_getLsbD_eq fun i hi => ?_
  simp only [defaultParams, defaultCapMeasLayout, packFields, BitVec.getLsbD_or, BitField.getLsbD_put,
    BitVec.getLsbD_append, BitVec.getLsbD_ofNat, BitVec.testBit_toNat]
  interval_cases i <;> simp

/-! ### CAP_TRIG -/

theorem rateCode_default (r : Rate) : defaultParams.capCodes.rate[r.index] = rateCode r := by
  cases r <;> rfl

/-- Of the four codes that fit the rate's field, 0 stands for no rate (30_encoding.md R99). -/
theorem exists_rateCode_iff {a : Nat} (ha : a < 4) : (∃ r, rateCode r = a) ↔ a ≠ 0 := by
  constructor
  · rintro ⟨r, rfl⟩
    cases r <;> decide
  · intro h
    rcases (by omega : a = 1 ∨ a = 2 ∨ a = 3) with rfl | rfl | rfl
    exacts [⟨.r100, rfl⟩, ⟨.r200, rfl⟩, ⟨.r400, rfl⟩]

theorem flagCode_mod_two (b : Bool) : flagCode b % 2 = 1 ↔ b = true := by cases b <;> decide

/-- The default trigger word (41_cap.md R182). -/
theorem capEncodeTrig_defaultParams (t : TrigCfg) :
    capEncodeTrig defaultParams t =
      (BitVec.ofBool t.reset ++ 0#3 ++ BitVec.ofNat 2 (rateCode t.rate) ++ 0#1 ++ BitVec.ofBool t.rep ++
        BitVec.ofBool t.init[0] ++ BitVec.ofBool t.init[1] ++ BitVec.ofBool t.init[2] ++ BitVec.ofBool t.init[3] ++
        BitVec.ofBool t.done[0] ++ BitVec.ofBool t.done[1] ++ BitVec.ofBool t.done[2] ++
        BitVec.ofBool t.done[3] : Word) := by
  rw [capEncodeTrig, rateCode_default]
  refine BitVec.eq_of_getLsbD_eq fun i hi => ?_
  simp only [defaultParams, defaultCapTrigLayout, packFields, BitVec.getLsbD_or, BitField.getLsbD_put,
    BitVec.getLsbD_append, BitVec.getLsbD_ofNat, BitVec.getLsbD_ofBool]
  interval_cases i <;> simp [flagCode_mod_two]

/-- The default places of a slot's two flags (30_encoding.md R98, R100). -/
theorem slotFlags_default (n : Fin 4) (w : Word) :
    defaultParams.capTrigLayout.init[n].flag w = w.getLsbD (7 - n) ∧
      defaultParams.capTrigLayout.done[n].flag w = w.getLsbD (3 - n) := by
  fin_cases n <;> exact ⟨flag_eq_getLsbD rfl w, flag_eq_getLsbD rfl w⟩

/-! ## The encoders' operations -/

/-- Settles O19: the word is the encoder's, whose fields hold their codes. -/
theorem adcEncGivesTheConfigWord : Obligations.AdcEncGivesTheConfigWord := by
  intro c s h
  constructor
  · rintro ⟨-, hadc, hadcCodes, -⟩
    exact ⟨_, exec_adcEnc_of_idle h c, adcWordHolds_adcEncode hadc hadcCodes c⟩
  · intro hp
    rw [exec_adcEnc_of_idle h, hp, adcEncode_default]

/-- Settles O31: the word is the encoder's, whose fields hold their codes. -/
theorem capEncmGivesTheMeasurementWord : Obligations.CapEncmGivesTheMeasurementWord := by
  intro m s h
  constructor
  · rintro ⟨-, -, -, -, hmeas, -, hcap, -, -⟩
    exact ⟨_, exec_capEncm_of_idle h m, measWordHas_capEncodeMeas hmeas hcap m, restIsZero_capEncodeMeas s.params m⟩
  · intro hp
    rw [exec_capEncm_of_idle h, hp, capEncodeMeas_defaultParams]

/-- Settles O33: the word is the encoder's, whose fields hold their codes. -/
theorem capEnctGivesTheTriggerWord : Obligations.CapEnctGivesTheTriggerWord := by
  intro t s h
  constructor
  · rintro ⟨-, -, -, -, -, htrig, hcap, -, -⟩
    exact ⟨_, exec_capEnct_of_idle h t, trigWordHas_capEncodeTrig htrig hcap t, restIsZero_capEncodeTrig s.params t⟩
  · intro hp
    rw [exec_capEnct_of_idle h, hp, capEncodeTrig_defaultParams]

/-! ## ADC.DEC -/

section
variable {p : Params}

/-- Each field is read as the value whose code stands at its place. Seven code tables leave no code without a value; the
gain's does, and such a code is read as `G5` (30_encoding.md R85). -/
theorem adcDecodeCfg_reads (hl : p.adcLayout.Ok) (hc : p.adcCodes.Ok) (w : Word) :
    let c := adcDecodeCfg p w
    p.adcCodes.mux[c.mux.index] = p.adcLayout.mux.get w ∧
      ((∃ g : Pga, p.adcCodes.pga[g.index] = p.adcLayout.pga.get w) →
        p.adcCodes.pga[c.pga.index] = p.adcLayout.pga.get w) ∧
      ((∀ g : Pga, p.adcCodes.pga[g.index] ≠ p.adcLayout.pga.get w) → c.pga = .g5) ∧
      p.adcCodes.mode[c.mode.index] = p.adcLayout.mode.get w ∧ p.adcCodes.dr[c.dr.index] = p.adcLayout.dr.get w ∧
      p.adcCodes.compMode[c.compMode.index] = p.adcLayout.compMode.get w ∧
      p.adcCodes.compPol[c.compPol.index] = p.adcLayout.compPol.get w ∧
      p.adcCodes.compLat[c.compLat.index] = p.adcLayout.compLat.get w ∧
      p.adcCodes.compQue[c.compQue.index] = p.adcLayout.compQue.get w := by
  obtain ⟨-, hmux, -, hmode, hdr, hcompMode, hcompPol, hcompLat, hcompQue⟩ := adcLayout_widths hl
  obtain ⟨cmux, cpga, cmode, cdr, ccompMode, ccompPol, ccompLat, ccompQue⟩ := hc
  refine ⟨code_getD_valueOfCode_get mux_enumerates cmux rfl hmux _,
    fun hg => code_getD_valueOfCode pga_enumerates cpga hg _, fun hg => ?_,
    code_getD_valueOfCode_get mode_enumerates cmode rfl hmode _,
    code_getD_valueOfCode_get dr_enumerates cdr rfl hdr _,
    code_getD_valueOfCode_get compMode_enumerates ccompMode rfl hcompMode _,
    code_getD_valueOfCode_get compPol_enumerates ccompPol rfl hcompPol _,
    code_getD_valueOfCode_get compLat_enumerates ccompLat rfl hcompLat _,
    code_getD_valueOfCode_get compQue_enumerates ccompQue rfl hcompQue _⟩
  rw [adcDecodeCfg, (valueOfCode_eq_none pga_enumerates cpga).2 hg, Option.getD_none]

end

/-- By default the gain is read as the code's gain, and a code above 5 as `G5` (30_encoding.md R85). -/
theorem pga_index_of_read {g : Pga} {code : Nat} (hsome : (∃ g' : Pga, g'.index.val = code) → g.index.val = code)
    (hnone : (∀ g' : Pga, g'.index.val ≠ code) → g = .g5) : g.index.val = min 5 code := by
  by_cases hex : ∃ g' : Pga, g'.index.val = code
  · have hg := hsome hex
    have hlt := g.index.isLt
    omega
  · have hbig : 5 < code := by
      by_contra hle
      exact hex ⟨Pga.values[(⟨code, by omega⟩ : Fin 6)], congrArg Fin.val (pga_enumerates.2 ⟨code, by omega⟩)⟩
    rw [hnone (not_exists.1 hex)]
    exact (min_eq_left hbig.le).symm

/-- The status by default: bit 15 set means idle (30_encoding.md R83). -/
theorem adcStatus_default (w : Word) :
    adcStatus defaultParams w = if w.getLsbD 15 then .idle else .converting := by
  have hflag : defaultParams.adcLayout.os.flag w = w.getLsbD 15 := flag_eq_getLsbD rfl w
  rw [← hflag]
  simp [adcStatus, BitField.flag]

/-- Settles O20: what the decoder reads in any layout, and the default layout's places and codes in it. -/
theorem adcDecReadsTheConfigWord : Obligations.AdcDecReadsTheConfigWord := by
  intro w s h
  constructor
  · rintro ⟨-, hadc, hadcCodes, -⟩
    exact ⟨_, exec_adcDec_of_idle h w, rfl, adcDecodeCfg_reads hadc hadcCodes w⟩
  · intro hp
    obtain ⟨-, hadc, hadcCodes, -⟩ := valid_defaultParams
    obtain ⟨cmux, cpga, cmode, cdr, ccompMode, ccompPol, ccompLat, ccompQue⟩ := adcCodes_default
    have hreads := adcDecodeCfg_reads hadc hadcCodes w
    simp only [cmux, cpga, cmode, cdr, ccompMode, ccompPol, ccompLat, ccompQue,
      BitField.get_eq_toNat_extractLsb'] at hreads
    obtain ⟨hmux, hpga, hg5, hrest⟩ := hreads
    refine ⟨adcDecodeCfg defaultParams w, ?_, rfl, hmux, pga_index_of_read hpga hg5, hrest⟩
    rw [exec_adcDec_of_idle h, hp, adcStatus_default]

/-! ## CAP.DECM and CAP.DECT -/

section
variable {s : State} {w : Word}

/-- CAP.DECM refuses a word with a selector code of no channel and reads every other (41_cap.md R181, 30_encoding.md
R112). -/
theorem exec_capDecm_cases (h : s.Idle) (hl : s.params.capMeasLayout.Ok) (hc : s.params.capCodes.Ok) :
    (¬ MeasCoded s.params w → exec (.capDecm w) s = .refused (.codeWithoutValue w)) ∧
      (MeasCoded s.params w → ∃ m : MeasCfg,
        exec (.capDecm w) s = .next { s with outcome := some (.ok (.meas m)) } ∧ MeasWordHas s.params m w) := by
  refine ⟨fun hn => exec_capDecm_of_none ((capDecodeMeas_eq_none hc).2 hn), fun hcoded => ?_⟩
  obtain ⟨m, hm⟩ := Option.ne_none_iff_exists'.1 fun hnone => (capDecodeMeas_eq_none hc).1 hnone hcoded
  exact ⟨m, exec_capDecm_of_some h hm, (capDecodeMeas_eq_some hl hc).1 hm⟩

/-- CAP.DECT refuses a word with a rate code of no rate and reads every other (41_cap.md R183, 30_encoding.md R112). -/
theorem exec_capDect_cases (h : s.Idle) (hc : s.params.capCodes.Ok) :
    (¬ TrigCoded s.params w → exec (.capDect w) s = .refused (.codeWithoutValue w)) ∧
      (TrigCoded s.params w → ∃ t : TrigCfg,
        exec (.capDect w) s = .next { s with outcome := some (.ok (.trig t)) } ∧ TrigWordHas s.params t w) := by
  refine ⟨fun hn => exec_capDect_of_none ((capDecodeTrig_eq_none hc).2 hn), fun hcoded => ?_⟩
  obtain ⟨t, ht⟩ := Option.ne_none_iff_exists'.1 fun hnone => (capDecodeTrig_eq_none hc).1 hnone hcoded
  exact ⟨t, exec_capDect_of_some h ht, (capDecodeTrig_eq_some hc).1 ht⟩

end

/-- By default a measurement word is read unless a selector code is 5 or 6 (30_encoding.md R95, R112). -/
theorem measCoded_default (w : Word) :
    MeasCoded defaultParams w ↔
      ¬ ((w.extractLsb' 13 3).toNat = 5 ∨ (w.extractLsb' 13 3).toNat = 6 ∨
        (w.extractLsb' 10 3).toNat = 5 ∨ (w.extractLsb' 10 3).toNat = 6) := by
  have ha := exists_channelCode_iff (w.extractLsb' 13 3).isLt
  have hb := exists_channelCode_iff (w.extractLsb' 10 3).isLt
  simp only [MeasCoded, channelCode_default, BitField.get_eq_toNat_extractLsb']
  exact (and_congr ha hb).trans (by rw [← not_or, or_assoc])

/-- What a default measurement word holds (30_encoding.md R94, R95). -/
theorem measWordHas_default {m : MeasCfg} {w : Word} (h : MeasWordHas defaultParams m w) :
    channelCode m.cha = (w.extractLsb' 13 3).toNat ∧ channelCode m.chb = (w.extractLsb' 10 3).toNat ∧
      m.capdac = w.extractLsb' 5 5 := by
  simp only [MeasWordHas, channelCode_default, BitField.get_eq_toNat_extractLsb'] at h
  obtain ⟨hcha, hchb, hcapdac⟩ := h
  exact ⟨hcha.symm, hchb.symm, (BitVec.eq_of_toNat_eq hcapdac).symm⟩

/-- Settles O32: the decoder in any layout, and the default layout's places and codes in it. -/
theorem capDecmReadsTheMeasurementWord : Obligations.CapDecmReadsTheMeasurementWord := by
  intro w s h
  constructor
  · rintro ⟨-, -, -, -, hmeas, -, hcap, -, -⟩
    exact exec_capDecm_cases h hmeas hcap
  · intro hp
    obtain ⟨-, -, -, -, hmeas, -, hcap, -, -⟩ : s.params.Valid := hp ▸ valid_defaultParams
    obtain ⟨hrefused, hread⟩ := exec_capDecm_cases (w := w) h hmeas hcap
    have hcoded := measCoded_default w
    rw [← hp] at hcoded
    refine ⟨fun hbad => hrefused fun hc => hcoded.1 hc hbad, fun hgood => ?_⟩
    obtain ⟨m, hm, hhas⟩ := hread (hcoded.2 hgood)
    exact ⟨m, hm, measWordHas_default (hp ▸ hhas)⟩

/-- By default a trigger word is read unless its rate code is 0 (30_encoding.md R99, R112). -/
theorem trigCoded_default (w : Word) : TrigCoded defaultParams w ↔ w.extractLsb' 10 2 ≠ 0 := by
  have hrate := exists_rateCode_iff (w.extractLsb' 10 2).isLt
  simp only [TrigCoded, rateCode_default, BitField.get_eq_toNat_extractLsb']
  exact hrate.trans (not_congr (BitVec.toNat_inj (y := 0)))

/-- What a default trigger word holds (30_encoding.md R98 to R100). -/
theorem trigWordHas_default {t : TrigCfg} {w : Word} (h : TrigWordHas defaultParams t w) :
    t.reset = w.getLsbD 15 ∧ rateCode t.rate = (w.extractLsb' 10 2).toNat ∧ t.rep = w.getLsbD 8 ∧
      ∀ n : Fin 4, t.init[n] = w.getLsbD (7 - n) ∧ t.done[n] = w.getLsbD (3 - n) := by
  obtain ⟨hreset, hrate, hrep, hflags⟩ := h
  rw [rateCode_default, BitField.get_eq_toNat_extractLsb'] at hrate
  refine ⟨hreset.symm.trans (flag_eq_getLsbD rfl w), hrate.symm, hrep.symm.trans (flag_eq_getLsbD rfl w), fun n => ?_⟩
  obtain ⟨hinit, hdone⟩ := hflags n
  obtain ⟨hinit', hdone'⟩ := slotFlags_default n w
  exact ⟨hinit.symm.trans hinit', hdone.symm.trans hdone'⟩

/-- Settles O34: the decoder in any layout, and the default layout's places and codes in it. -/
theorem capDectReadsTheTriggerWord : Obligations.CapDectReadsTheTriggerWord := by
  intro w s h
  constructor
  · rintro ⟨-, -, -, -, -, -, hcap, -, -⟩
    exact exec_capDect_cases h hcap
  · intro hp
    obtain ⟨-, -, -, -, -, -, hcap, -, -⟩ : s.params.Valid := hp ▸ valid_defaultParams
    obtain ⟨hrefused, hread⟩ := exec_capDect_cases (w := w) h hcap
    have hcoded := trigCoded_default w
    rw [← hp] at hcoded
    refine ⟨fun hbad => hrefused fun hc => hcoded.1 hc hbad, fun hgood => ?_⟩
    obtain ⟨t, ht, hhas⟩ := hread (hcoded.2 hgood)
    exact ⟨t, ht, trigWordHas_default (hp ▸ hhas)⟩

end Sys2Proof.Machine
end

section
/-! PROOFS. The ADC operations that return what they compute, or make one transaction (spec/40_adc.md R131, R134, R136
to R139, R141), from an idle state. A transaction ends each of these operations whatever its answer, so one rule for a
read and one for a write give the whole next state. -/

namespace Sys2Proof.Machine

/-! ## Operations without a transaction -/

theorem isAdcAddress_iff (addr : Addr7) :
    isAdcAddress addr = true ↔ addr = 0x48 ∨ addr = 0x49 ∨ addr = 0x4A ∨ addr = 0x4B := by
  simp [isAdcAddress, or_assoc]

/-- Settles O18: both ends of the operation are ends from an idle state, the first with the unit's registers written. -/
theorem adcNewConstructsOrFails : Obligations.AdcNewConstructsOrFails := by
  intro addr s h
  rw [exec, execAdcNew]
  simp only [isAdcAddress_iff]
  split
  · exact next_returnOk_goTo_of_idle
      (s := { s with adcPresent := true, adcAddr := addr, adcCfg := s.params.adcDefaultCfg }) h .single .none
  · rw [raise_goTo, raise_of_idle h]

/-- A value of another field's type sets no field (40_adc.md R134). -/
theorem adcWithField_eq_none {field : AdcField} {value : AdcFieldValue} (h : value.field ≠ field) (c : AdcCfg) :
    adcWithField c field value = none := by
  unfold adcWithField
  split
  case h_10 => rfl
  all_goals exact absurd rfl h

theorem exec_adcWith_of_some {s : State} (h : s.Idle) {c c' : AdcCfg} {field : AdcField} {value : AdcFieldValue}
    (hc : adcWithField c field value = some c') :
    exec (.adcWith c field value) s = .next { s with outcome := some (.ok (.cfg c')) } := by
  rw [exec, execAdcWith, hc]
  exact next_returnOk_goTo_of_idle h _ _

/-- Settles O21: a value sets the field of its own type, and no other. -/
theorem adcWithSetsOneField : Obligations.AdcWithSetsOneField := by
  intro c s h
  refine ⟨fun _ => exec_adcWith_of_some h rfl, fun _ => exec_adcWith_of_some h rfl,
    fun _ => exec_adcWith_of_some h rfl, fun _ => exec_adcWith_of_some h rfl, fun _ => exec_adcWith_of_some h rfl,
    fun _ => exec_adcWith_of_some h rfl, fun _ => exec_adcWith_of_some h rfl, fun _ => exec_adcWith_of_some h rfl,
    fun _ => exec_adcWith_of_some h rfl, fun field value hne => ?_⟩
  rw [exec, execAdcWith, adcWithField_eq_none hne]

/-! ## Volts -/

/-- The defining equation of the volts, without the division (40_adc.md R138). -/
theorem adcVolts_mul (p : Params) (raw : BitVec 16) (pga : Pga) :
    adcVolts p raw pga * 32768 = (raw.toInt : Rat) * ((p.adcFsMv[pga.index] : Rat) / 1000) :=
  div_mul_cancel₀ _ (by norm_num)

/-- Settles O26: the sample is at least -32768 and below 32768, and its volts are in proportion. -/
theorem adcScaleGivesVolts : Obligations.AdcScaleGivesVolts := by
  intro raw pga s h fs
  have hmul : adcVolts s.params raw pga * 32768 = (raw.toInt : Rat) * fs := adcVolts_mul s.params raw pga
  refine ⟨adcVolts s.params raw pga, next_returnOk_goTo_of_idle h _ _, hmul, fun hmin => ?_, fun hfs => ?_⟩
  · rw [hmin] at hmul
    push_cast at hmul
    linarith
  · have hraw : (raw.toInt : Rat) < 32768 := by exact_mod_cast raw.toInt_lt
    have := mul_lt_mul_of_pos_right hraw hfs
    linarith

/-! ## Operations that end with one transaction -/

/-- What a read that ends the operation hands over: a value of the word, or the bus error (20_memory.md R56, R57). -/
def readOutcome (value : Word → Value) : ReadReply → OpOutcome
  | .ok b0 b1 => .ok (value (b0 ++ b1))
  | .err e => .busError e

/-- What a write that ends the operation hands over: nothing, or the bus error (20_memory.md R55, R57). -/
def writeOutcome : WriteReply → OpOutcome
  | .ok => .ok .none
  | .err e => .busError e

section
variable {s : State}

/-- A read before a return ends the operation whatever its answer (20_memory.md R57, 60_exceptions.md R282). -/
theorem memRead_returnOk (s : State) (q q' : Seq) (dev : Addr7) (reg : Byte) (value : Params → AdcCfg → Word → Value) :
    memRead (goTo s q) dev reg (fun w s1 => returnOk (goTo s1 q') (value s1.params s1.adcCfg w)) =
      finish (afterRead s dev reg) (readOutcome (value s.params s.adcCfg) (readReply s dev reg)) := by
  cases hr : readReply s dev reg with
  | ok b0 b1 =>
    rw [memRead_of_ok ((readReply_goTo ..).trans hr), afterRead_goTo, goTo_goTo, returnOk_goTo]
    simp only [goTo_params, goTo_adcCfg, afterRead_params, afterRead_adcCfg]
    rfl
  | err e =>
    rw [memRead_of_err ((readReply_goTo ..).trans hr), afterRead_goTo, raise_goTo]
    rfl

/-- A write before a return ends the operation whatever its answer (20_memory.md R57, 60_exceptions.md R282). -/
theorem memWrite_returnOk (s : State) (q q' : Seq) (dev : Addr7) (reg : Byte) (w : Word) :
    memWrite (goTo s q) dev reg w (fun s1 => returnOk (goTo s1 q') .none) =
      finish (afterWrite s dev reg w) (writeOutcome (writeReply s dev reg w)) := by
  cases hr : writeReply s dev reg w with
  | ok =>
    rw [memWrite_of_ok ((writeReply_goTo ..).trans hr), afterWrite_goTo, goTo_goTo, returnOk_goTo]
    rfl
  | err e =>
    rw [memWrite_of_err ((writeReply_goTo ..).trans hr), afterWrite_goTo, raise_goTo]
    rfl

/-- From an idle state an operation that ends with one read takes one answer and makes one event. -/
theorem finish_afterRead_of_idle (h : s.Idle) (dev : Addr7) (reg : Byte) (o : OpOutcome) :
    finish (afterRead s dev reg) o = { takeReadReply s with
      events := s.events ++ [.busRead dev reg (readReply s dev reg)], outcome := some o } := by
  rw [finish_of_idle (idle_afterRead h dev reg), afterRead, emit, takeReadReply_events]

/-- From an idle state an operation that ends with one write takes one answer and makes one event. -/
theorem finish_afterWrite_of_idle (h : s.Idle) (dev : Addr7) (reg : Byte) (w : Word) (o : OpOutcome) :
    finish (afterWrite s dev reg w) o = { takeWriteReply s with
      events := s.events ++ [.busWrite dev reg (hiByte w) (loByte w) (writeReply s dev reg w)]
      outcome := some o } := by
  rw [finish_of_idle (idle_afterWrite h dev reg w), afterWrite, emit, takeWriteReply_events]

/-! ### ADC.WRCFG -/

/-- The configuration held after step 1 of ADC.WRCFG (40_adc.md R136). -/
def wrcfgHeld (held : AdcCfg) : Option AdcCfg → AdcCfg
  | some c => { c with os := .idle }
  | none => held

theorem heldAfterWrcfg_eq (s : State) (cfg : Option AdcCfg) :
    heldAfterWrcfg s cfg = { s with adcCfg := wrcfgHeld s.adcCfg cfg } := by
  cases cfg <;> rfl

theorem wrcfgHeld_os {held : AdcCfg} (h : held.os = .idle) (cfg : Option AdcCfg) : (wrcfgHeld held cfg).os = .idle := by
  cases cfg with
  | none => exact h
  | some c => rfl

theorem takeWriteReply_setAdcCfg (s : State) (c : AdcCfg) :
    takeWriteReply { s with adcCfg := c } = { takeWriteReply s with adcCfg := c } := by
  cases hw : s.wrTape <;> simp only [takeWriteReply, hw]

/-- ADC.WRCFG replaces the held configuration and then sends it (40_adc.md R136). -/
theorem adcWriteHeld_eq (s : State) (cfg : Option AdcCfg) :
    let held := wrcfgHeld s.adcCfg cfg
    let w := adcEncode s.params held
    adcWriteHeld cfg s = finish (afterWrite { s with adcCfg := held } s.adcAddr regAdcConfig w)
      (writeOutcome (writeReply s s.adcAddr regAdcConfig w)) := by
  rw [adcWriteHeld, heldAfterWrcfg_eq]
  exact memWrite_returnOk { s with adcCfg := wrcfgHeld s.adcCfg cfg } ..

theorem adcWriteHeld_of_idle (h : s.Idle) (cfg : Option AdcCfg) :
    let held := wrcfgHeld s.adcCfg cfg
    let w := adcEncode s.params held
    let reply := writeReply s s.adcAddr regAdcConfig w
    adcWriteHeld cfg s = { takeWriteReply s with
      adcCfg := held
      events := s.events ++ [.busWrite s.adcAddr regAdcConfig (hiByte w) (loByte w) reply]
      outcome := some (writeOutcome reply) } := by
  rw [adcWriteHeld_eq, finish_afterWrite_of_idle (s := { s with adcCfg := wrcfgHeld s.adcCfg cfg }) h,
    takeWriteReply_setAdcCfg]
  rfl

/-- The trigger's bit of an idle configuration's word is 0 (30_encoding.md R83). -/
theorem os_get_adcEncode_of_idle {p : Params} (hp : p.Valid) {c : AdcCfg} (hc : c.os = .idle) :
    p.adcLayout.os.get (adcEncode p c) = 0 := by
  obtain ⟨-, hl, hcodes, -⟩ := hp
  obtain ⟨hos, -⟩ := adcWordHolds_adcEncode hl hcodes c
  simpa [hc] using hos

/-- Settles O23: the replacement, and the one write that ends the operation. -/
theorem adcWrcfgReplacesAndSends : Obligations.AdcWrcfgReplacesAndSends := by
  intro cfg s h hp held
  have hheld : held = wrcfgHeld s.adcCfg cfg := by cases cfg <;> rfl
  rw [hheld]
  refine ⟨needAdc_eq_next.2 ⟨hp, ?_⟩, fun hv hos => os_get_adcEncode_of_idle hv (wrcfgHeld_os hos cfg)⟩
  exact adcWriteHeld_of_idle h cfg

/-! ### ADC.RDCFG, ADC.RDY and ADC.RDV -/

/-- The status bit is looked at alone (40_adc.md R141). -/
theorem readsIdle_eq_decide (p : Params) (w : Word) : readsIdle p w = decide (p.adcLayout.os.get w = 1) := by
  by_cases h : p.adcLayout.os.get w = 1 <;> simp [readsIdle, adcStatus, h]

/-- From an idle state, the whole of an operation that reads one register of the unit and returns a value of the
word. -/
theorem needAdc_memRead_of_idle (h : s.Idle) (hp : s.adcPresent = true) (q q' : Seq) (reg : Byte)
    (value : Params → AdcCfg → Word → Value) :
    needAdc s (memRead (goTo s q) s.adcAddr reg fun w s1 => returnOk (goTo s1 q') (value s1.params s1.adcCfg w)) =
      .next { takeReadReply s with
        events := s.events ++ [.busRead s.adcAddr reg (readReply s s.adcAddr reg)]
        outcome := some (readOutcome (value s.params s.adcCfg) (readReply s s.adcAddr reg)) } :=
  needAdc_eq_next.2 ⟨hp, (memRead_returnOk s q q' s.adcAddr reg value).trans (finish_afterRead_of_idle h ..)⟩

/-- Settles O24: two operations that end with one read of CONFIG. -/
theorem adcConfigReadsReportTheDevice : Obligations.AdcConfigReadsReportTheDevice := by
  intro s h hp
  simp only [← readsIdle_eq_decide]
  exact ⟨needAdc_memRead_of_idle h hp _ _ _ fun p _ w => .cfgStatus (adcDecodeCfg p w) (adcStatus p w),
    needAdc_memRead_of_idle h hp _ _ _ fun p _ w => .bool (readsIdle p w)⟩

/-- Settles O25: an operation that ends with one read of CONVERSION. -/
theorem adcRdvScalesTheSample : Obligations.AdcRdvScalesTheSample := fun _ h hp =>
  needAdc_memRead_of_idle h hp _ _ _ fun p cfg w => .volts (p.carried (adcVolts p w cfg.pga))

end

end Sys2Proof.Machine
end

section
/-! PROOFS. ADC.RDSINGLE (spec/40_adc.md R140, R142), as far as the bus port's answers are fixed. A turn of the poll is
determined by the limit and the next answers: it ends the operation, or leaves it polling with one more status read
counted. Every claim about whole runs then rests on one induction on the answers that report "converting". -/

namespace Sys2Proof.Machine

/-! ## Transactions that the tape answers -/

/-- The state after transactions whose events are `es`, with the answers `ws` and `rs` still to come (20_memory.md R55,
R56, R68). -/
def State.answered (s : State) (ws : List WriteReply) (rs : List ReadReply) (es : List Event) : State :=
  { s with wrTape := ws, rdTape := rs, events := s.events ++ es }

section
variable {s : State} {ws : List WriteReply} {rs : List ReadReply}

theorem answered_answered (s : State) (ws ws' : List WriteReply) (rs rs' : List ReadReply) (es es' : List Event) :
    (s.answered ws rs es).answered ws' rs' es' = s.answered ws' rs' (es ++ es') := by
  simp only [State.answered, List.append_assoc]

theorem finish_answered_of_idle (h : s.Idle) (ws : List WriteReply) (rs : List ReadReply) (es : List Event)
    (o : OpOutcome) :
    finish (s.answered ws rs es) o =
      { s with wrTape := ws, rdTape := rs, events := s.events ++ es, outcome := some o } :=
  finish_of_idle (s := s.answered ws rs es) h o

theorem afterRead_of_tape {r : ReadReply} (h : s.rdTape = r :: rs) (dev : Addr7) (reg : Byte) :
    afterRead s dev reg = s.answered s.wrTape rs [.busRead dev reg r] := by
  simp only [afterRead, readReply_of_tape h, takeReadReply, h, emit, State.answered]

theorem afterWrite_of_tape {r : WriteReply} (h : s.wrTape = r :: ws) (dev : Addr7) (reg : Byte) (w : Word) :
    afterWrite s dev reg w = s.answered ws s.rdTape [.busWrite dev reg (hiByte w) (loByte w) r] := by
  simp only [afterWrite, writeReply_of_tape h, takeWriteReply, h, emit, State.answered]

/-! ## One turn of the poll -/

/-- ADC.RDSINGLE between two machine steps, with `n` status reads made: at step 4, where the poll goes on
(40_adc.md R140). -/
def State.polling (s : State) (n : Nat) : State := s.pausedAt (.adcRdsingle 4) (some n) s.capDac s.capIter

theorem polling_answered_of_idle (h : s.Idle) (ws : List WriteReply) (rs : List ReadReply) (es : List Event) (n : Nat) :
    (s.answered ws rs es).polling n = { s with wrTape := ws, rdTape := rs, events := s.events ++ es }.pausedAt
      (.adcRdsingle 4) (some n) none none := by
  obtain ⟨-, -, -, hdac, hiter, -⟩ := h
  rw [State.polling, State.answered, hdac, hiter]

/-- What a word read from CONVERSION is returned as (40_adc.md R138, R139). -/
def State.sampleValue (s : State) (w : Word) : Value := .volts (s.params.carried (adcVolts s.params w s.adcCfg.pga))

/-- The read of a sample ends the operation whatever its answer (40_adc.md R139, R140 steps 7 and 8). -/
theorem adcReadSample_of_tape {r : ReadReply} (h : s.rdTape = r :: rs) (read scale : Seq) :
    adcReadSample read scale s =
      finish (s.answered s.wrTape rs [.busRead s.adcAddr regAdcConversion r]) (readOutcome s.sampleValue r) := by
  rw [← afterRead_of_tape h, ← readReply_of_tape h s.adcAddr regAdcConversion]
  exact memRead_returnOk s read scale _ _ fun p cfg w => .volts (p.carried (adcVolts p w cfg.pga))

variable {n : Nat}

/-- At the limit the poll ends the operation (40_adc.md R140 step 4). -/
theorem adcPoll_of_limit (h : s.params.adcPollLimit = some n) :
    adcPoll n (s.polling n) = finish s (.conversionTimeout n) :=
  if_pos h

/-- A failed status read ends the operation (40_adc.md R140 step 5, 60_exceptions.md R272). -/
theorem adcPoll_of_err {e : Nat} (hl : s.params.adcPollLimit ≠ some n) (h : s.rdTape = .err e :: rs) :
    adcPoll n (s.polling n) =
      finish (s.answered s.wrTape rs [.busRead s.adcAddr regAdcConfig (.err e)]) (.busError e) := by
  have ht : (goTo (s.polling n) (.adcRdsingle 5)).rdTape = .err e :: rs := h
  refine (if_neg hl).trans ((memRead_of_err (readReply_of_tape ht ..)).trans ?_)
  rw [afterRead_of_tape ht]
  rfl

/-- A status read that is answered is counted, and its status bit decides (40_adc.md R140 steps 5 and 6). -/
theorem adcPoll_of_status {b0 b1 : Byte} (hl : s.params.adcPollLimit ≠ some n) (h : s.rdTape = .ok b0 b1 :: rs) :
    adcPoll n (s.polling n) =
      let counted := (s.answered s.wrTape rs [.busRead s.adcAddr regAdcConfig (.ok b0 b1)]).polling (n + 1)
      if s.params.adcLayout.os.get (b0 ++ b1) = 1 then
        adcReadSample (.adcRdsingle 7) (.adcRdsingle 8) (goTo counted (.adcRdsingle 6))
      else counted := by
  have ht : (goTo (s.polling n) (.adcRdsingle 5)).rdTape = .ok b0 b1 :: rs := h
  refine (if_neg hl).trans ((memRead_of_tape ht ..).trans ?_)
  simp only [goTo_params, readsIdle_eq_decide, decide_eq_true_eq]
  rfl

/-- A status of "converting" leaves the operation polling (40_adc.md R140 step 6). -/
theorem adcPoll_of_converting {b0 b1 : Byte} (hl : s.params.adcPollLimit ≠ some n) (h : s.rdTape = .ok b0 b1 :: rs)
    (hs : s.params.adcLayout.os.get (b0 ++ b1) ≠ 1) :
    adcPoll n (s.polling n) =
      (s.answered s.wrTape rs [.busRead s.adcAddr regAdcConfig (.ok b0 b1)]).polling (n + 1) :=
  (adcPoll_of_status hl h).trans (if_neg hs)

/-- An idle status ends the operation with the read of the sample (40_adc.md R140 steps 6 to 8). -/
theorem adcPoll_of_idle_status {b0 b1 : Byte} {r : ReadReply} (hl : s.params.adcPollLimit ≠ some n)
    (h : s.rdTape = .ok b0 b1 :: r :: rs) (hs : s.params.adcLayout.os.get (b0 ++ b1) = 1) :
    adcPoll n (s.polling n) = finish
      (s.answered s.wrTape rs [.busRead s.adcAddr regAdcConfig (.ok b0 b1), .busRead s.adcAddr regAdcConversion r])
      (readOutcome s.sampleValue r) := by
  have hboth := answered_answered s s.wrTape s.wrTape (r :: rs) rs [.busRead s.adcAddr regAdcConfig (.ok b0 b1)]
    [.busRead s.adcAddr regAdcConversion r]
  calc adcPoll n (s.polling n) = _ := (adcPoll_of_status hl h).trans (if_pos hs)
    _ = finish ((s.answered s.wrTape (r :: rs) _).answered s.wrTape rs _) (readOutcome s.sampleValue r) :=
      adcReadSample_of_tape rfl _ _
    _ = _ := congrArg (finish · _) hboth

/-! ## The start, and the turns of later machine steps -/

/-- The one write of ADC.RDSINGLE, of the held configuration with the trigger set and the override
(40_adc.md R140 steps 1 and 2). -/
def State.triggerEvent (s : State) (mux : Option Mux) (reply : WriteReply) : Event :=
  let w := adcEncode s.params (adcTriggerCfg s.adcCfg mux)
  .busWrite s.adcAddr regAdcConfig (hiByte w) (loByte w) reply

/-- A write that fails ends the operation (40_adc.md R140 step 2, 60_exceptions.md R272). -/
theorem adcSingle_of_err {e : Nat} (h : s.wrTape = .err e :: ws) (mux : Option Mux) :
    adcSingle mux s = finish (s.answered ws s.rdTape [s.triggerEvent mux (.err e)]) (.busError e) := by
  have ht : (goTo s (.adcRdsingle 2)).wrTape = .err e :: ws := h
  unfold adcSingle
  refine (memWrite_of_err (writeReply_of_tape ht ..)).trans ?_
  rw [afterWrite_of_tape ht]
  rfl

/-- After the write of the trigger the poll begins, with no status read made (40_adc.md R140 steps 1 to 3). -/
theorem adcSingle_of_ok (h : s.wrTape = .ok :: ws) (mux : Option Mux) :
    adcSingle mux s = adcPoll 0 ((s.answered ws s.rdTape [s.triggerEvent mux .ok]).polling 0) := by
  have ht : (goTo s (.adcRdsingle 2)).wrTape = .ok :: ws := h
  unfold adcSingle
  exact memWrite_of_tape ht ..

theorem step_polling (s : State) (n : Nat) : step (s.polling n) = .next (adcPoll n (s.polling n)) := rfl

/-- The events of status reads that are answered (40_adc.md R140 step 5). -/
def State.statusEvents (s : State) (polls : List (Byte × Byte)) : List Event :=
  polls.map fun q => .busRead s.adcAddr regAdcConfig (.ok q.1 q.2)

/-- The operation goes on polling for one machine step for each answer of "converting", as long as the limit is not
reached (40_adc.md R140, R142; notes/assumptions/1.md). -/
theorem runSteps_adcPoll {polls : List (Byte × Byte)} (hl : ∀ k < polls.length, s.params.adcPollLimit ≠ some (n + k))
    (hs : ∀ q ∈ polls, s.params.adcLayout.os.get (q.1 ++ q.2) ≠ 1)
    (h : s.rdTape = polls.map (fun q => .ok q.1 q.2) ++ rs) :
    runSteps polls.length (adcPoll n (s.polling n)) = .next (adcPoll (n + polls.length)
      ((s.answered s.wrTape rs (s.statusEvents polls)).polling (n + polls.length))) := by
  induction polls generalizing s n with
  | nil =>
    have hsame : s.answered s.wrTape rs [] = s := by
      rw [State.answered, List.append_nil, ← show s.rdTape = rs from h]
    exact congrArg (fun u : State => Host.Outcome.next (adcPoll n (u.polling n))) hsame.symm
  | cons q polls ih =>
    let s1 := s.answered s.wrTape (polls.map (fun q => .ok q.1 q.2) ++ rs) (s.statusEvents [q])
    have hturn : adcPoll n (s.polling n) = s1.polling (n + 1) :=
      adcPoll_of_converting (hl 0 (Nat.succ_pos _)) h (hs q List.mem_cons_self)
    have hlater : ∀ k < polls.length, s1.params.adcPollLimit ≠ some (n + 1 + k) := fun k hk => by
      rw [Nat.add_assoc, Nat.add_comm 1 k]
      exact hl (k + 1) (Nat.succ_lt_succ hk)
    have hrest := ih hlater (fun r hr => hs r (List.mem_cons_of_mem q hr)) rfl
    rw [hturn, List.length_cons, runSteps, step_polling]
    rw [answered_answered, Nat.add_assoc, Nat.add_comm 1 polls.length] at hrest
    exact hrest

/-! ## Runs from acceptance -/

/-- ADC.RDSINGLE writes its trigger and polls once for every answer of "converting"; the next turn is the one after
them (40_adc.md R140, R142). -/
theorem runSteps_exec_adcRdsingle {polls : List (Byte × Byte)} (mux : Option Mux) (hp : s.adcPresent = true)
    (hl : ∀ k < polls.length, s.params.adcPollLimit ≠ some k)
    (hs : ∀ q ∈ polls, s.params.adcLayout.os.get (q.1 ++ q.2) ≠ 1) (hw : s.wrTape = .ok :: ws)
    (hr : s.rdTape = polls.map (fun q => .ok q.1 q.2) ++ rs) :
    ∃ s0, exec (.adcRdsingle mux) s = .next s0 ∧ runSteps polls.length s0 = .next (adcPoll polls.length
      ((s.answered ws rs (s.triggerEvent mux .ok :: s.statusEvents polls)).polling polls.length)) := by
  refine ⟨_, needAdc_eq_next.2 ⟨hp, adcSingle_of_ok hw mux⟩, ?_⟩
  have hrun := runSteps_adcPoll (s := s.answered ws s.rdTape [s.triggerEvent mux .ok]) (n := 0)
    (fun k hk => by rw [Nat.zero_add]; exact hl k hk) hs hr
  rw [answered_answered, Nat.zero_add] at hrun
  exact hrun

/-- Settles O28: the turn after the answers of "converting" reads an idle status and the sample. -/
theorem adcRdsinglePollsUntilIdle : Obligations.AdcRdsinglePollsUntilIdle := by
  intro mux s polls b0 b1 c0 c1 ws rs h hp hl hs hidle hw hr w
  have hbelow : ∀ k ≤ polls.length, s.params.adcPollLimit ≠ some k := by
    intro k hk hlimit
    rcases hl with hnone | ⟨limit, hsome, hlt⟩
    · cases hnone.symm.trans hlimit
    · cases hsome.symm.trans hlimit
      omega
  obtain ⟨s0, hs0, hrun⟩ := runSteps_exec_adcRdsingle mux hp (fun k hk => hbelow k hk.le) hs hw hr
  refine ⟨s0, hs0, hrun.trans (congrArg _ ?_)⟩
  rw [adcPoll_of_idle_status (s := s.answered ws _ _) (hbelow _ le_rfl) rfl hidle, answered_answered,
    finish_answered_of_idle h]
  rfl

/-- Settles O29: the turn after the answers of "converting" is at the limit. -/
theorem adcRdsingleTimesOut : Obligations.AdcRdsingleTimesOut := by
  intro mux s polls ws rs h hp _ hl hs hw hr w
  have hbelow : ∀ k < polls.length, s.params.adcPollLimit ≠ some k := by
    intro k hk hlimit
    cases hl.symm.trans hlimit
    omega
  obtain ⟨s0, hs0, hrun⟩ := runSteps_exec_adcRdsingle mux hp hbelow hs hw hr
  refine ⟨s0, hs0, hrun.trans (congrArg _ ?_)⟩
  rw [adcPoll_of_limit (s := s.answered ws rs _) hl, finish_answered_of_idle h]
  rfl

/-- Settles O30: the turn after all but the last answer reads the last one, which reports "converting" as well. -/
theorem adcRdsingleHangsWhileConverting : Obligations.AdcRdsingleHangsWhileConverting := by
  intro mux s q polls ws rs h hp hl hs hw hr w
  have hbelow : ∀ k, s.params.adcPollLimit ≠ some k := fun k hlimit => by cases hl.symm.trans hlimit
  obtain ⟨init, last, hsplit⟩ : ∃ init last, q :: polls = init ++ [last] :=
    ⟨_, _, (List.dropLast_concat_getLast (List.cons_ne_nil q polls)).symm⟩
  have hlen : polls.length = init.length := by simpa using congrArg List.length hsplit
  have hr' : s.rdTape = init.map (fun r => .ok r.1 r.2) ++ .ok last.1 last.2 :: rs := by simpa [hsplit] using hr
  rw [hsplit] at hs ⊢
  rw [hlen]
  obtain ⟨s0, hs0, hrun⟩ := runSteps_exec_adcRdsingle mux hp (fun k _ => hbelow k)
    (fun r hr => hs r (List.mem_append_left _ hr)) hw hr'
  refine ⟨s0, hs0, hrun.trans (congrArg _ ?_)⟩
  rw [adcPoll_of_converting (s := s.answered ws _ _) (hbelow _) rfl (hs last (by simp)), answered_answered,
    polling_answered_of_idle h]
  rw [List.map_append]
  rfl

/-! ## Ends at the first status read, and of a later turn -/

/-- A state whose sequencer stands between two turns of the poll is a polling one (10_state.md R25, R38). -/
theorem eq_polling (hb : s.busy = true) (hq : s.seq = some (.adcRdsingle 4)) (hp : s.adcPolls = some n) :
    s = s.polling n := by
  cases s
  simp_all only [State.polling, State.pausedAt]

/-- The state a later turn of the poll ends in: the transactions have happened, and the operation's registers are gone
(60_exceptions.md R282). -/
def State.endedTurn (s : State) (rs : List ReadReply) (es : List Event) (o : OpOutcome) : State :=
  { s with
    rdTape := rs, events := s.events ++ es, outcome := some o
    busy := false, seq := none, adcPolls := none }

theorem finish_answered_of_no_search (hdac : s.capDac = none) (hiter : s.capIter = none) (hidx : s.srIdx = none)
    (rs : List ReadReply) (es : List Event) (o : OpOutcome) :
    finish (s.answered s.wrTape rs es) o = s.endedTurn rs es o := by
  simp only [finish, State.answered, State.endedTurn, hdac, hiter, hidx]

/-- A failed write is the only event (40_adc.md R140 step 2). -/
theorem exec_adcRdsingle_of_write_err (h : s.Idle) (hp : s.adcPresent = true) (mux : Option Mux) {e : Nat}
    (hw : s.wrTape = .err e :: ws) :
    exec (.adcRdsingle mux) s = .next { s with
      wrTape := ws, events := s.events ++ [s.triggerEvent mux (.err e)], outcome := some (.busError e) } :=
  needAdc_eq_next.2 ⟨hp, (adcSingle_of_err hw mux).trans (finish_answered_of_idle h ..)⟩

/-- A failed first status read is the second event and the last (40_adc.md R140 step 5). -/
theorem exec_adcRdsingle_of_status_err (h : s.Idle) (hp : s.adcPresent = true) (mux : Option Mux) {e : Nat}
    (hl : s.params.adcPollLimit ≠ some 0) (hw : s.wrTape = .ok :: ws) (hr : s.rdTape = .err e :: rs) :
    exec (.adcRdsingle mux) s = .next { s with
      wrTape := ws, rdTape := rs
      events := s.events ++ [s.triggerEvent mux .ok, .busRead s.adcAddr regAdcConfig (.err e)]
      outcome := some (.busError e) } := by
  refine needAdc_eq_next.2 ⟨hp, (adcSingle_of_ok hw mux).trans ?_⟩
  rw [adcPoll_of_err (s := s.answered ws _ _) hl hr, answered_answered]
  exact finish_answered_of_idle h ..

/-- After an idle first status read the sample read is the third event and the last, whatever its answer
(40_adc.md R140 steps 6 to 8). -/
theorem exec_adcRdsingle_of_idle_status (h : s.Idle) (hp : s.adcPresent = true) (mux : Option Mux) {b0 b1 : Byte}
    {r : ReadReply} (hl : s.params.adcPollLimit ≠ some 0) (hw : s.wrTape = .ok :: ws)
    (hs : s.params.adcLayout.os.get (b0 ++ b1) = 1) (hr : s.rdTape = .ok b0 b1 :: r :: rs) :
    exec (.adcRdsingle mux) s = .next { s with
      wrTape := ws, rdTape := rs
      events := s.events ++ [s.triggerEvent mux .ok, .busRead s.adcAddr regAdcConfig (.ok b0 b1),
        .busRead s.adcAddr regAdcConversion r]
      outcome := some (readOutcome s.sampleValue r) } := by
  refine needAdc_eq_next.2 ⟨hp, (adcSingle_of_ok hw mux).trans ?_⟩
  rw [adcPoll_of_idle_status (s := s.answered ws _ _) hl hr hs, answered_answered]
  exact finish_answered_of_idle h ..

/-- Settles O27: the ends of the start, and of one turn of the poll. -/
theorem adcRdsingleEndsAtTheFirstIdlePollOrAnError : Obligations.AdcRdsingleEndsAtTheFirstIdlePollOrAnError := by
  intro mux s e b0 b1 c0 c1 ws rs hp t
  have ht : t = adcTriggerCfg s.adcCfg mux := by cases mux <;> rfl
  rw [ht]
  refine ⟨fun h => ⟨?_, fun hl hw => ⟨?_, fun hs => ⟨?_, ?_⟩⟩⟩, ?_⟩
  · rintro hw rfl
    exact exec_adcRdsingle_of_write_err h hp mux hw
  · exact exec_adcRdsingle_of_status_err h hp mux hl hw
  · exact exec_adcRdsingle_of_idle_status h hp mux hl hw hs
  · exact exec_adcRdsingle_of_idle_status h hp mux hl hw hs
  · rintro n hb hq hn hdac hiter hidx hl rfl
    have hstep : step s = .next (adcPoll n (s.polling n)) := congrArg step (eq_polling hb hq hn)
    have hend := finish_answered_of_no_search hdac hiter hidx
    have hsample : ∀ r, s.params.adcLayout.os.get (b0 ++ b1) = 1 → s.rdTape = .ok b0 b1 :: r :: rs →
        step s = .next (s.endedTurn rs
          [.busRead s.adcAddr regAdcConfig (.ok b0 b1), .busRead s.adcAddr regAdcConversion r]
          (readOutcome s.sampleValue r)) := fun r hs hr => by
      rw [hstep, adcPoll_of_idle_status hl hr hs, hend]
    refine ⟨fun hr => ?_, fun hs => ⟨hsample _ hs, hsample _ hs⟩⟩
    rw [hstep, adcPoll_of_err hl hr, hend]
    rfl

end

end Sys2Proof.Machine
end

section
/-! PROOFS. The capacitance operations that only return what they compute (spec/41_cap.md R185, R186, R200 to R202), and
the pure step of the search (R195). -/

namespace Sys2Proof.Machine

/-! ## The assembled result -/

theorem toNat_capAssemble (m l : Word) : (capAssemble m l).toNat = m.toNat * 256 + l.toNat / 256 := by
  have hhigh : (hiByte l).toNat = l.toNat / 256 := by
    have := l.isLt
    rw [hiByte, BitVec.extractLsb'_toNat, Nat.shiftRight_eq_div_pow]
    omega
  rw [capAssemble, BitVec.toNat_append, ← Nat.shiftLeft_add_eq_or_of_lt (hiByte l).isLt, Nat.shiftLeft_eq, hhigh]

/-- The assembled result is read as two's complement (41_cap.md R186). -/
theorem toInt_capAssemble (m l : Word) :
    let v := m.toNat * 256 + l.toNat / 256
    (capAssemble m l).toInt = if v < 2 ^ 23 then (v : Int) else (v : Int) - 2 ^ 24 := by
  have hsign : 2 * (m.toNat * 256 + l.toNat / 256) < 2 ^ 24 ↔ m.toNat * 256 + l.toNat / 256 < 2 ^ 23 := by omega
  simp only [BitVec.toInt_eq_toNat_cond, toNat_capAssemble, hsign]
  rfl

/-- Settles O35: the operation returns the assembled result. -/
theorem capAsmAssemblesTheResult : Obligations.CapAsmAssemblesTheResult := by
  intro m l s h v
  rw [← toInt_capAssemble m l]
  exact next_returnOk_goTo_of_idle h _ _

/-- Settles O36: a return from an idle state in which the rate has been written. -/
theorem capSetrateHoldsTheRate : Obligations.CapSetrateHoldsTheRate := fun rate s h =>
  next_returnOk_goTo_of_idle (s := { s with capRate := rate }) h .single .none

/-! ## The step of the search -/

/-- A reading strictly between the bounds is the result, whatever the calibration value (41_cap.md R195). -/
theorem searchStep_of_inside {raw : Int} (hmin : -8388608 < raw) (hmax : raw < 8388607) (ceiling dac : Nat) :
    searchStep ceiling raw dac = .done (.inRange raw dac) := if_pos ⟨hmin, hmax⟩

theorem searchStep_max24 (ceiling dac : Nat) :
    searchStep ceiling 8388607 dac = if dac < ceiling then .next (dac + 1) else .done .overflow := by
  by_cases h : dac < ceiling <;> simp [searchStep, max24, min24, h]

theorem searchStep_min24 (ceiling dac : Nat) :
    searchStep ceiling (-8388608) dac = if 0 < dac then .next (dac - 1) else .done .underflow := by
  by_cases h : 0 < dac <;> simp [searchStep, max24, min24, h]

/-- The decision of every reading of 24 bits (41_cap.md R195). -/
theorem searchStep_toInt (ceiling dac : Nat) (v : Word24) :
    searchStep ceiling v.toInt dac =
      if v.toInt = 8388607 then if dac < ceiling then .next (dac + 1) else .done .overflow
      else if v.toInt = -8388608 then if 0 < dac then .next (dac - 1) else .done .underflow
      else .done (.inRange v.toInt dac) := by
  have hlow : -8388608 ≤ v.toInt := v.le_toInt
  have hhigh : v.toInt < 8388608 := v.toInt_lt
  by_cases hmax : v.toInt = 8388607
  · rw [hmax, if_pos rfl, searchStep_max24]
  · by_cases hmin : v.toInt = -8388608
    · rw [hmin, if_neg (by decide), if_pos rfl, searchStep_min24]
    · rw [if_neg hmax, if_neg hmin, searchStep_of_inside (by omega) (by omega)]

/-- Settles O43: a reading inside the bounds, at the upper one, or at the lower one. -/
theorem searchStepHasFiveCases : Obligations.SearchStepHasFiveCases := by
  intro raw dac hlow hhigh _
  split
  · next hin => exact searchStep_of_inside hin.1 hin.2 31 dac
  · next hout =>
    split
    · next hmax => rw [hmax, searchStep_max24]
    · next hmax =>
      obtain rfl : raw = -8388608 := by omega
      exact searchStep_min24 31 dac

/-! ## Picofarads and attofarads -/

theorem needCapdac_of_le {p : Params} {capdac : Nat} (h : capdac ≤ p.capDacMax) (r : Result) :
    needCapdac p capdac r = r := if_neg (not_lt.2 h)

theorem needCapdac_of_lt {p : Params} {capdac : Nat} (h : p.capDacMax < capdac) (r : Result) :
    needCapdac p capdac r = .refused (.capdacOutOfDomain capdac) := if_pos h

/-- Settles O46: the bound of the calibration value, and the return of the quotient and the calibration term. -/
theorem capPfGivesPicofarads : Obligations.CapPfGivesPicofarads := fun _ _ _ h =>
  ⟨fun hgt => needCapdac_of_lt hgt _, fun hle => (needCapdac_of_le hle _).trans (next_returnOk_goTo_of_idle h _ _)⟩

/-- Truncation toward zero of a quotient with a nonnegative dividend (41_cap.md R201). -/
theorem tdiv_bounds_of_nonneg {a b : Int} (ha : 0 ≤ a) (hb : 0 < b) :
    a.tdiv b * b ≤ a ∧ a < (a.tdiv b + 1) * b := by
  rw [Int.tdiv_eq_ediv_of_nonneg ha]
  exact ⟨Int.ediv_mul_le a hb.ne', Int.lt_ediv_add_one_mul_self a hb⟩

/-- Truncation toward zero of a quotient with a negative dividend (41_cap.md R201). -/
theorem tdiv_bounds_of_neg {a b : Int} (ha : a < 0) (hb : 0 < b) :
    (a.tdiv b - 1) * b < a ∧ a ≤ a.tdiv b * b := by
  have hneg := tdiv_bounds_of_nonneg (neg_nonneg.2 ha.le) hb
  rw [Int.neg_tdiv] at hneg
  constructor <;> linarith

/-- Settles O47: the raw term is the quotient truncated toward zero, which its two bounds say on each sign. -/
theorem capAfGivesAttofarads : Obligations.CapAfGivesAttofarads := by
  intro raw capdac s h hdiv
  have hb : (0 : Int) < s.params.capLsbDiv := Int.natCast_pos.2 hdiv
  refine ⟨fun hgt => needCapdac_of_lt hgt _, fun hle => ⟨(raw.toInt * 1000000).tdiv s.params.capLsbDiv,
    (needCapdac_of_le hle _).trans (next_returnOk_goTo_of_idle h _ _), fun hraw => ?_, fun hraw => ?_⟩⟩
  · exact tdiv_bounds_of_nonneg (by omega) hb
  · exact tdiv_bounds_of_neg (by omega) hb

/-- A quotient truncated toward zero is less than one divisor away, and exact when the divisor divides. -/
theorem tdiv_mul_sub_bounds (a : Int) {b : Int} (hb : 0 < b) : a.tdiv b * b - a < b ∧ -b < a.tdiv b * b - a := by
  rcases lt_or_ge a 0 with ha | ha
  · obtain ⟨hlow, hhigh⟩ := tdiv_bounds_of_neg ha hb
    constructor <;> linarith
  · obtain ⟨hlow, hhigh⟩ := tdiv_bounds_of_nonneg ha hb
    constructor <;> linarith

/-- The difference of the two conversions is that of the truncated quotient and the exact one (41_cap.md R202). -/
theorem conversions_sub_mul (raw : Word24) (capdac : Nat) :
    ((capAttofarads defaultParams raw capdac : Rat) - 1000000 * capPicofarads defaultParams raw capdac) * 524288 =
      (((raw.toInt * 1000000).tdiv 524288 * 524288 - raw.toInt * 1000000 : Int) : Rat) := by
  simp only [capAttofarads, capPicofarads, defaultParams]
  push_cast
  ring

/-- Settles O48: the calibration terms are equal, so the difference is the truncation's, which is less than one divisor
before the division. -/
theorem conversionsAgree : Obligations.ConversionsAgree := by
  intro raw capdac _ d
  have hd : d * 524288 = _ := conversions_sub_mul raw capdac
  obtain ⟨hhigh, hlow⟩ := tdiv_mul_sub_bounds (raw.toInt * 1000000) (b := 524288) (by decide)
  have hhigh' : d * 524288 < 524288 := by rw [hd]; exact_mod_cast hhigh
  have hlow' : -524288 < d * 524288 := by rw [hd]; exact_mod_cast hlow
  refine ⟨by linarith, by linarith, fun hraw => ?_⟩
  have hdvd : (524288 : Int) ∣ raw.toInt * 1000000 := by omega
  rw [Int.tdiv_mul_cancel hdvd, sub_self, Int.cast_zero] at hd
  linarith

end Sys2Proof.Machine
end

section
/-! PROOFS. A measurement that does not come to its end (spec/41_cap.md R188), since the done flag is clear or one of
the five transactions fails. It ends the operation that makes it. -/

namespace Sys2Proof.Machine

section
variable {s : State} {ws : List WriteReply} {rs : List ReadReply}

/-! ## Transactions at a labelled step -/

theorem memWrite_goTo_of_ok (h : s.wrTape = .ok :: ws) (q : Seq) (dev : Addr7) (reg : Byte) (w : Word)
    (k : State → State) :
    memWrite (goTo s q) dev reg w k =
      k (goTo (s.answered ws s.rdTape [.busWrite dev reg (hiByte w) (loByte w) .ok]) q) :=
  memWrite_of_tape (s := goTo s q) h dev reg w k

theorem memRead_goTo_of_ok {b0 b1 : Byte} (h : s.rdTape = .ok b0 b1 :: rs) (q : Seq) (dev : Addr7) (reg : Byte)
    (k : Word → State → State) :
    memRead (goTo s q) dev reg k =
      k (b0 ++ b1) (goTo (s.answered s.wrTape rs [.busRead dev reg (.ok b0 b1)]) q) :=
  memRead_of_tape (s := goTo s q) h dev reg k

/-- A write that the tape answers with an error ends the operation (20_memory.md R57). -/
theorem memWrite_goTo_of_err {e : Nat} (h : s.wrTape = .err e :: ws) (q : Seq) (dev : Addr7) (reg : Byte) (w : Word)
    (k : State → State) :
    memWrite (goTo s q) dev reg w k =
      finish (s.answered ws s.rdTape [.busWrite dev reg (hiByte w) (loByte w) (.err e)]) (.busError e) := by
  rw [memWrite_of_err (writeReply_of_tape (s := goTo s q) h ..), afterWrite_goTo, raise_goTo, afterWrite_of_tape h]
  rfl

/-- A read that the tape answers with an error ends the operation (20_memory.md R57). -/
theorem memRead_goTo_of_err {e : Nat} (h : s.rdTape = .err e :: rs) (q : Seq) (dev : Addr7) (reg : Byte)
    (k : Word → State → State) :
    memRead (goTo s q) dev reg k = finish (s.answered s.wrTape rs [.busRead dev reg (.err e)]) (.busError e) := by
  rw [memRead_of_err (readReply_of_tape (s := goTo s q) h ..), afterRead_goTo, raise_goTo, afterRead_of_tape h]
  rfl

/-! ## The parts of a measurement (41_cap.md R188) -/

/-- Steps 6 to 8 of a measurement, after a status word with the done flag set: the result pair is read. -/
def measureResult (at_ : Nat → Seq) (ch : Nat) (k : Word24 → State → State) (s : State) : State :=
  memRead (goTo s (at_ 6)) s.params.capDevAddr (regCapMsb ch) fun msb s6 =>
  memRead (goTo s6 (at_ 7)) s6.params.capDevAddr (regCapLsb ch) fun lsb s7 =>
  k (capAssemble msb lsb) (goTo s7 (at_ 8))

/-- Steps 4 to 8 of a measurement, after the settle delay: the status word is read, and its done flag decides. -/
def measureStatus (at_ : Nat → Seq) (ch : Nat) (k : Word24 → State → State) (s : State) : State :=
  memRead (goTo s (at_ 4)) s.params.capDevAddr regCapTrig fun status s4 =>
  if readsDone s4.params ch status then measureResult at_ ch k s4 else raise s4 (.measurementNotComplete ch)

/-- The first three events of a measurement whose writes are answered with `Ok` (41_cap.md R188 steps 1 to 3). -/
def State.triggerEvents (s : State) (ch : Fin 4) (capdac : Nat) : List Event :=
  let conf := capEncodeMeas s.params (measConfig ch capdac)
  let trig := capEncodeTrig s.params (measTrigger s.capRate ch)
  [.busWrite s.params.capDevAddr (regCapConf ch) (hiByte conf) (loByte conf) .ok,
    .busWrite s.params.capDevAddr regCapTrig (hiByte trig) (loByte trig) .ok,
    .delay .ms (settleMs s.capRate)]

/-- The events of a measurement from its first read on follow those up to it (41_cap.md R188). -/
theorem measureEvents_eq_triggerEvents_append (s : State) (ch : Fin 4) (capdac : Nat) (r3 r4 r5 : ReadReply) :
    measureEvents s.params s.capRate ch capdac .ok .ok r3 r4 r5 = s.triggerEvents ch capdac ++
      [.busRead s.params.capDevAddr regCapTrig r3, .busRead s.params.capDevAddr (regCapMsb ch) r4,
        .busRead s.params.capDevAddr (regCapLsb ch) r5] := measureEvents_eq ..

variable {ch : Fin 4} (at_ : Nat → Seq) (k : Word24 → State → State)

/-- After the writes and the delay the status is to be read (41_cap.md R188 steps 1 to 3). -/
theorem measureChannel_of_writes (hw : s.wrTape = .ok :: .ok :: ws) (capdac : Nat) :
    measureChannel at_ ch capdac s k =
      measureStatus at_ ch k (s.answered ws s.rdTape (s.triggerEvents ch capdac)) := by
  rw [measureChannel, goTo_goTo, memWrite_goTo_of_ok hw, goTo_goTo, memWrite_goTo_of_ok (ws := ws) rfl]
  simp only [State.triggerEvents, State.answered, delay, emit, goTo, List.append_assoc, List.cons_append,
    List.nil_append]
  rfl

/-- An error in the place of the status word ends the operation (41_cap.md R188 step 4). -/
theorem measureStatus_of_err {e : Nat} (hr : s.rdTape = .err e :: rs) :
    measureStatus at_ ch k s =
      finish (s.answered s.wrTape rs [.busRead s.params.capDevAddr regCapTrig (.err e)]) (.busError e) :=
  memRead_goTo_of_err hr ..

/-- A clear done flag ends the operation (41_cap.md R188 step 5, 60_exceptions.md R273). -/
theorem measureStatus_of_not_done {b0 b1 : Byte} (hr : s.rdTape = .ok b0 b1 :: rs)
    (hdone : readsDone s.params ch (b0 ++ b1) = false) :
    measureStatus at_ ch k s = finish (s.answered s.wrTape rs [.busRead s.params.capDevAddr regCapTrig (.ok b0 b1)])
      (.measurementNotComplete ch) := by
  rw [measureStatus, memRead_goTo_of_ok hr, raise_goTo]
  exact if_neg (Bool.eq_false_iff.1 hdone)

/-- After a set done flag the result pair is to be read (41_cap.md R188 step 5). -/
theorem measureStatus_of_done {b0 b1 : Byte} (hr : s.rdTape = .ok b0 b1 :: rs)
    (hdone : readsDone s.params ch (b0 ++ b1) = true) :
    measureStatus at_ ch k s =
      measureResult at_ ch k (s.answered s.wrTape rs [.busRead s.params.capDevAddr regCapTrig (.ok b0 b1)]) := by
  rw [measureStatus, memRead_goTo_of_ok hr]
  exact if_pos hdone

/-- After the writes and a set done flag the result pair is to be read (41_cap.md R188 steps 1 to 5). -/
theorem measureChannel_of_done {b0 b1 : Byte} {capdac : Nat} (hw : s.wrTape = .ok :: .ok :: ws)
    (hr : s.rdTape = .ok b0 b1 :: rs) (hdone : readsDone s.params ch (b0 ++ b1) = true) :
    measureChannel at_ ch capdac s k = measureResult at_ ch k (s.answered ws rs
      (s.triggerEvents ch capdac ++ [.busRead s.params.capDevAddr regCapTrig (.ok b0 b1)])) := by
  rw [measureChannel_of_writes at_ k hw, measureStatus_of_done (s := s.answered ws s.rdTape _) at_ k hr hdone,
    answered_answered]
  rfl

/-- An error in the place of the MSB word ends the operation (41_cap.md R188 step 6). -/
theorem measureResult_of_msb_err {e : Nat} (hr : s.rdTape = .err e :: rs) :
    measureResult at_ ch k s =
      finish (s.answered s.wrTape rs [.busRead s.params.capDevAddr (regCapMsb ch) (.err e)]) (.busError e) :=
  memRead_goTo_of_err hr ..

/-- An error in the place of the LSB word ends the operation (41_cap.md R188 step 7). -/
theorem measureResult_of_lsb_err {m0 m1 : Byte} {e : Nat} (hr : s.rdTape = .ok m0 m1 :: .err e :: rs) :
    measureResult at_ ch k s = finish (s.answered s.wrTape rs
      [.busRead s.params.capDevAddr (regCapMsb ch) (.ok m0 m1), .busRead s.params.capDevAddr (regCapLsb ch) (.err e)])
      (.busError e) := by
  rw [measureResult, memRead_goTo_of_ok hr, goTo_goTo, memRead_goTo_of_err (rs := rs) rfl, answered_answered]
  rfl

/-! ## Measurements that do not come to their end -/

/-- A clear done flag ends the operation after the status read (41_cap.md R188 step 5, 60_exceptions.md R273). -/
theorem measureChannel_of_not_done {b0 b1 : Byte} (hp : s.params.Valid) (hw : s.wrTape = .ok :: .ok :: ws)
    (hr : s.rdTape = .ok b0 b1 :: rs) (hdone : doneBit s.params ch (b0 ++ b1) = false) (capdac : Nat) :
    measureChannel at_ ch capdac s k = finish (s.answered ws rs
      ((measureEvents s.params s.capRate ch capdac .ok .ok (.ok b0 b1) default default).take 4))
      (.measurementNotComplete ch) := by
  have hd : readsDone s.params ch (b0 ++ b1) = false := (readsDone_eq_doneBit hp ch _).trans hdone
  rw [measureChannel_of_writes at_ k hw,
    measureStatus_of_not_done (s := s.answered ws s.rdTape _) at_ k hr hd, answered_answered,
    measureEvents_eq_triggerEvents_append]
  rfl

/-- An error at any of the five transactions ends the operation there (41_cap.md R188, 60_exceptions.md R272). -/
theorem measureChannel_of_failed {capdac e : Nat} {b0 b1 m0 m1 : Byte} (hp : s.params.Valid)
    (hdone : doneBit s.params ch (b0 ++ b1) = true) {q : List WriteReply × List ReadReply × List Event}
    (hq : q ∈ failedMeasurements s.params s.capRate ch capdac e b0 b1 m0 m1) (hw : s.wrTape = q.1 ++ ws)
    (hr : s.rdTape = q.2.1 ++ rs) :
    measureChannel at_ ch capdac s k = finish (s.answered ws rs q.2.2) (.busError e) := by
  have hd : readsDone s.params ch (b0 ++ b1) = true := (readsDone_eq_doneBit hp ch _).trans hdone
  simp only [failedMeasurements, List.mem_cons, List.not_mem_nil, or_false] at hq
  rcases hq with rfl | rfl | rfl | rfl | rfl <;> dsimp only [List.cons_append, List.nil_append] at hw hr ⊢
  · rw [measureChannel, goTo_goTo, memWrite_goTo_of_err hw, hr, measureEvents_eq]
    rfl
  · rw [measureChannel, goTo_goTo, memWrite_goTo_of_ok hw, goTo_goTo, memWrite_goTo_of_err (ws := ws) rfl,
      answered_answered, ← hr, measureEvents_eq]
    rfl
  · rw [measureChannel_of_writes at_ k hw, measureStatus_of_err (s := s.answered ws s.rdTape _) at_ k hr,
      answered_answered, measureEvents_eq_triggerEvents_append]
    rfl
  · rw [measureChannel_of_done at_ k hw hr hd, measureResult_of_msb_err (rs := rs) at_ k rfl, answered_answered,
      measureEvents_eq_triggerEvents_append, List.append_assoc]
    rfl
  · rw [measureChannel_of_done at_ k hw hr hd, measureResult_of_lsb_err (rs := rs) at_ k rfl, answered_answered,
      measureEvents_eq_triggerEvents_append, List.append_assoc]
    rfl

end

end Sys2Proof.Machine
end

section
/-! PROOFS. CAP.READ (spec/41_cap.md R194 to R198), as far as the bus port's answers are fixed, and CAP.MEAS where its
measurement does not come to its end. A measurement that does hands its reading to the search, which ends or stands at
step 2 again. CAP.READ does at its start what it does in a turn at calibration value 0 after no measurement, so what is
proved of a turn holds of both. -/

namespace Sys2Proof.Machine

section
variable {s : State} {ws : List WriteReply} {rs : List ReadReply} {ch : Fin 4}

/-! ## CAP.READ between two machine steps -/

/-- CAP.READ at step 2, at calibration value `dac` after `iter` measurements (41_cap.md R194). -/
def State.searching (s : State) (ch dac iter : Nat) : State :=
  s.pausedAt (.capRead ch 2) s.adcPolls (some (BitVec.ofNat 8 dac)) (some iter)

/-- A state whose sequencer stands between two turns of the search is a searching one (10_state.md R27, R28, R38). -/
theorem eq_searching {ch iter : Nat} {dac : Byte} (hb : s.busy = true) (hq : s.seq = some (.capRead ch 2))
    (hd : s.capDac = some dac) (hi : s.capIter = some iter) : s = s.searching ch dac.toNat iter := by
  cases s
  simp_all only [State.searching, State.pausedAt, BitVec.ofNat_toNat, BitVec.setWidth_eq]

/-- A calibration value not above the ceiling fits its register (10_state.md R27, 30_encoding.md R96). -/
theorem toNat_ofNat_dac {p : Params} (hp : p.Valid) {dac : Nat} (hle : dac ≤ p.capDacMax) :
    (BitVec.ofNat 8 dac).toNat = dac := by
  obtain ⟨-, -, -, -, -, -, -, -, hmax⟩ := hp
  exact Nat.mod_eq_of_lt (by omega)

/-- A later machine step makes one turn of the search (41_cap.md R194). -/
theorem step_searching (hp : s.params.Valid) (ch : Fin 4) {dac : Nat} (hle : dac ≤ s.params.capDacMax) (iter : Nat) :
    step (s.searching ch dac iter) = .next (capSearch ch dac iter (s.searching ch dac iter)) := by
  have hdac := toNat_ofNat_dac hp hle
  have hturn := resume_of_searching (s := s.searching ch dac iter) rfl rfl rfl (Nat.le_of_lt_succ ch.isLt)
    (hdac.trans_le hle)
  rw [step_of_busy rfl, hturn, hdac]

/-- The start of CAP.READ is a turn at calibration value 0 after no measurement (41_cap.md R194 steps 0 and 1). -/
theorem exec_capRead_eq_step (hp : s.params.Valid) (ch : Fin 4) : exec (.capRead ch) s = step (s.searching ch 0 0) := by
  rw [step_searching hp ch (Nat.zero_le _)]
  exact needChannel_eq_next.2 ⟨Nat.le_of_lt_succ ch.isLt, rfl⟩

/-- At the limit a turn of the search ends the operation (41_cap.md R194 step 2, R198). -/
theorem step_searching_of_limit (hp : s.params.Valid) (ch : Fin 4) {dac iter : Nat} (hle : dac ≤ s.params.capDacMax)
    (hlimit : s.params.capSearchLimit = some iter) :
    step (s.searching ch dac iter) = .next (finish s (.searchNotConverged iter)) := by
  rw [step_searching hp ch hle, capSearch_eq_carryOut]
  exact congrArg _ (if_pos hlimit)

/-- A measurement writes its own labels (41_cap.md R188). -/
theorem measureChannel_searching (at_ : Nat → Seq) (ch n dac iter capdac : Nat) (s : State)
    (k : Word24 → State → State) :
    measureChannel at_ n capdac (s.searching ch dac iter) k =
      measureChannel at_ n capdac { s with capDac := some (BitVec.ofNat 8 dac), capIter := some iter } k := rfl

/-- Below the limit a turn of the search makes a measurement (41_cap.md R194 step 3). -/
theorem step_searching_of_below (hp : s.params.Valid) (ch : Fin 4) {dac iter : Nat} (hle : dac ≤ s.params.capDacMax)
    (hlimit : s.params.capSearchLimit ≠ some iter) :
    step (s.searching ch dac iter) =
      .next (measureChannel (.capReadMeas ch) ch dac (s.searching ch dac iter) fun raw u =>
        carryOut ch raw.toInt (searchStep u.params.capDacMax raw.toInt dac) { u with capIter := some (iter + 1) }) := by
  rw [step_searching hp ch hle, capSearch_eq_carryOut]
  exact congrArg _ (if_neg hlimit)

/-! ## Operations whose measurement does not come to its end -/

/-- A measurement at calibration value `capdac` ends the operation that makes it with the outcome `o`: it makes the
events `es` and leaves the answers `ws` and `rs`, whatever the registers of a running search hold. -/
def State.MeasurementFails (s : State) (ch capdac : Nat) (ws : List WriteReply) (rs : List ReadReply) (es : List Event)
    (o : OpOutcome) : Prop :=
  ∀ dac iter at_ k, measureChannel at_ ch capdac { s with capDac := dac, capIter := iter } k =
    finish (s.answered ws rs es) o

theorem measurementFails_of_not_done {b0 b1 : Byte} (hp : s.params.Valid) (hw : s.wrTape = .ok :: .ok :: ws)
    (hr : s.rdTape = .ok b0 b1 :: rs) (hdone : doneBit s.params ch (b0 ++ b1) = false) (capdac : Nat) :
    s.MeasurementFails ch capdac ws rs
      ((measureEvents s.params s.capRate ch capdac .ok .ok (.ok b0 b1) default default).take 4)
      (.measurementNotComplete ch) :=
  fun dac iter at_ k => measureChannel_of_not_done (s := { s with capDac := dac, capIter := iter }) at_ k hp hw hr
    hdone capdac

theorem measurementFails_of_mem {capdac e : Nat} {b0 b1 m0 m1 : Byte} (hp : s.params.Valid)
    (hdone : doneBit s.params ch (b0 ++ b1) = true) {f : List WriteReply × List ReadReply × List Event}
    (hf : f ∈ failedMeasurements s.params s.capRate ch capdac e b0 b1 m0 m1) (hw : s.wrTape = f.1 ++ ws)
    (hr : s.rdTape = f.2.1 ++ rs) : s.MeasurementFails ch capdac ws rs f.2.2 (.busError e) :=
  fun dac iter at_ k => measureChannel_of_failed (s := { s with capDac := dac, capIter := iter }) at_ k hp hdone hf hw
    hr

section
variable {es : List Event} {o : OpOutcome} {capdac : Nat}

/-- CAP.MEAS ends there (41_cap.md R188). -/
theorem exec_capMeas_of_fails (h : s.Idle) (hle : capdac ≤ s.params.capDacMax)
    (hf : s.MeasurementFails ch capdac ws rs es o) :
    exec (.capMeas ch capdac) s =
      .next { s with wrTape := ws, rdTape := rs, events := s.events ++ es, outcome := some o } := by
  have hmeas := hf s.capDac s.capIter .capMeas fun raw s1 => returnOk s1 (.raw raw.toInt)
  refine needChannel_eq_next.2 ⟨Nat.le_of_lt_succ ch.isLt, needCapdac_eq_next.2 ⟨hle, congrArg _ ?_⟩⟩
  exact hmeas.trans (finish_answered_of_idle h ..)

/-- A turn of the search ends there (41_cap.md R194 step 3). -/
theorem step_searching_of_fails (hp : s.params.Valid) (hle : capdac ≤ s.params.capDacMax) {iter : Nat}
    (hlimit : s.params.capSearchLimit ≠ some iter) (hf : s.MeasurementFails ch capdac ws rs es o) :
    step (s.searching ch capdac iter) = .next (finish (s.answered ws rs es) o) := by
  rw [step_searching_of_below hp ch hle hlimit, measureChannel_searching, hf]

/-- CAP.READ ends there in its first turn (41_cap.md R194 step 3). -/
theorem exec_capRead_of_fails (h : s.Idle) (hp : s.params.Valid) (hlimit : s.params.capSearchLimit ≠ some 0)
    (hf : s.MeasurementFails ch 0 ws rs es o) :
    exec (.capRead ch) s =
      .next { s with wrTape := ws, rdTape := rs, events := s.events ++ es, outcome := some o } := by
  rw [exec_capRead_eq_step hp ch, step_searching_of_fails hp (Nat.zero_le _) hlimit hf, finish_answered_of_idle h]

end

/-- The end of a later turn of the search removes the operation's registers (60_exceptions.md R282). -/
theorem finish_answered_of_no_poll (hpolls : s.adcPolls = none) (hidx : s.srIdx = none) (ws : List WriteReply)
    (rs : List ReadReply) (es : List Event) (o : OpOutcome) :
    finish (s.answered ws rs es) o = { s with
      wrTape := ws, rdTape := rs, events := s.events ++ es, outcome := some o
      busy := false, seq := none, capDac := none, capIter := none } := by
  simp only [finish, State.answered, hpolls, hidx]

/-- Settles O38: a clear done flag is a measurement that fails, in each of the three places. -/
theorem doneFlagClearEndsTheOperation : Obligations.DoneFlagClearEndsTheOperation := by
  intro ch s b0 b1 ws rs hp hw hr hdone measured
  have hf := measurementFails_of_not_done hp hw hr hdone
  refine ⟨fun capdac h hle => exec_capMeas_of_fails h hle (hf capdac),
    fun h hlimit => exec_capRead_of_fails h hp hlimit (hf 0), ?_⟩
  intro dac iter hb hq hd hi hpolls hidx hlimit hle
  calc step s = step (s.searching ch dac.toNat iter) := congrArg step (eq_searching hb hq hd hi)
    _ = _ := step_searching_of_fails hp hle hlimit (hf dac.toNat)
    _ = _ := congrArg _ (finish_answered_of_no_poll hpolls hidx ..)

/-- Settles O39: a bus error is a measurement that fails, in each of the three places. -/
theorem measurementStopsAtABusError : Obligations.MeasurementStopsAtABusError := by
  intro ch capdac e s b0 b1 m0 m1 ws rs hp hle hdone q hq hw hr failed
  have hf := measurementFails_of_mem hp hdone hq hw hr
  refine ⟨fun h => exec_capMeas_of_fails h hle hf, ?_, ?_⟩
  · rintro h rfl hlimit
    exact exec_capRead_of_fails h hp hlimit hf
  · rintro dac iter rfl hb hq hd hi hpolls hidx hlimit
    calc step s = step (s.searching ch dac.toNat iter) := congrArg step (eq_searching hb hq hd hi)
      _ = _ := step_searching_of_fails hp hle hlimit hf
      _ = _ := congrArg _ (finish_answered_of_no_poll hpolls hidx ..)

/-! ## Turns of the search that a reading decides -/

/-- What a decision leaves of a state: the operation is over, or stands at step 2 with one more measurement made
(41_cap.md R194 steps 4 to 8). -/
def State.decided (s : State) (ch iter : Nat) : SearchStep → State
  | .done r => finish s (.ok (.range r))
  | .next d => s.searching ch d (iter + 1)

theorem carryOut_eq_decided (ch iter : Nat) (raw : Int) (decision : SearchStep) (s : State) :
    carryOut ch raw decision { s with capIter := some (iter + 1) } = s.decided ch iter decision := by
  unfold carryOut
  rw [passSteps_eq_goTo ch (decisionStep_bounds raw decision).1]
  cases decision <;> rfl

/-- The registers of the turn before make no difference to what a decision leaves. -/
theorem decided_searching (s : State) (es : List Event) (ch dac iter : Nat) (q : Seq) (decision : SearchStep) :
    (goTo ((s.searching ch dac iter).answered ws rs es) q).decided ch iter decision =
      (s.answered ws rs es).decided ch iter decision := by
  cases decision <;> rfl

/-- An answered turn of the search makes the six events of a measurement, and its reading decides (41_cap.md R194). -/
theorem step_searching_of_answers (hp : s.params.Valid) {dac iter : Nat} (hle : dac ≤ s.params.capDacMax)
    (hlimit : s.params.capSearchLimit ≠ some iter) {b0 b1 m0 m1 l0 l1 : Byte} (hw : s.wrTape = .ok :: .ok :: ws)
    (hr : s.rdTape = .ok b0 b1 :: .ok m0 m1 :: .ok l0 l1 :: rs) (hdone : doneBit s.params ch (b0 ++ b1) = true) :
    step (s.searching ch dac iter) = .next ((s.answered ws rs
      (measureEvents s.params s.capRate ch dac .ok .ok (.ok b0 b1) (.ok m0 m1) (.ok l0 l1))).decided ch iter
        (searchStep s.params.capDacMax (capAssemble (m0 ++ m1) (l0 ++ l1)).toInt dac)) := by
  rw [step_searching_of_below hp ch hle hlimit,
    measureChannel_of_answers (s := s.searching ch dac iter) _ ch dac _ hp hw hr hdone, carryOut_eq_decided]
  exact congrArg _ (decided_searching s _ ch dac iter ..)

/-- Settles O41: the first turn, from a state with no register of a running operation. -/
theorem capReadFirstReadingDecides : Obligations.CapReadFirstReadingDecides := by
  intro ch s b0 b1 m0 m1 l0 l1 ws rs h hp hlimit hw hr hdone raw u
  have hend : ∀ r, u.decided ch 0 (.done r) = { u with outcome := some (.ok (.range r)) } :=
    fun r => finish_answered_of_idle h ..
  have hrun : u.decided ch 0 (.next 1) = u.pausedAt (.capRead ch 2) none (some 1) (some 1) := by
    obtain ⟨-, -, hpolls, -, -, -⟩ := h
    exact congrArg (u.pausedAt (.capRead ch 2) · (some 1) (some 1)) hpolls
  rw [exec_capRead_eq_step hp ch, step_searching_of_answers hp (Nat.zero_le _) hlimit hw hr hdone, searchStep_toInt]
  refine congrArg _ ?_
  split_ifs with hmax hceil hmin
  · exact hrun
  · exact hend _
  · exact absurd ‹0 < 0› (lt_irrefl 0)
  · exact hend _
  · exact hend _

/-- The register's value one up, and one down from a value that is not 0 (41_cap.md R194 steps 5 and 6). -/
theorem ofNat_toNat_add_one (dac : Byte) : BitVec.ofNat 8 (dac.toNat + 1) = dac + 1 := by
  rw [BitVec.ofNat_add, BitVec.ofNat_toNat, BitVec.setWidth_eq]
  rfl

theorem ofNat_toNat_sub_one {dac : Byte} (h : 0 < dac.toNat) : BitVec.ofNat 8 (dac.toNat - 1) = dac - 1 := by
  bv_omega

/-- Settles O42: a later turn, in which the label and `busy` stand as they did before it when the search goes on. -/
theorem capSearchTurnFollowsTheReading : Obligations.CapSearchTurnFollowsTheReading := by
  intro ch iter dac s b0 b1 m0 m1 l0 l1 ws rs hp hlimit hle hb hq hd hi hpolls hidx hw hr hdone raw u ended
  have hend : ∀ r, u.decided ch iter (.done r) = ended r := fun r => finish_answered_of_no_poll hpolls hidx ..
  have hrun : ∀ d, u.decided ch iter (.next d) =
      { u with capDac := some (BitVec.ofNat 8 d), capIter := some (iter + 1) } := fun d => by
    simp only [State.decided, State.searching, State.pausedAt, ← hq, ← hb, u]
  rw [congrArg step (eq_searching hb hq hd hi), step_searching_of_answers hp hle hlimit hw hr hdone, searchStep_toInt]
  refine congrArg _ ?_
  split_ifs with hmax hup hmin hdown
  · rw [← ofNat_toNat_add_one]
    exact hrun _
  · exact hend _
  · rw [← ofNat_toNat_sub_one hdown]
    exact hrun _
  · exact hend _
  · exact hend _

/-! ## Runs of the search under the default parameters, but for the limit -/

/-- Two halves of a word make the word (20_memory.md R52). -/
theorem extractLsb'_append_halves (w : Word) : w.extractLsb' 8 8 ++ w.extractLsb' 0 8 = w :=
  (BitVec.extractLsb'_append_extractLsb'_eq_extractLsb' (start₁ := 0) (len₁ := 8) rfl).trans BitVec.extractLsb'_eq_self

/-- A turn whose measurement reads the pair `(m, l)` (41_cap.md R194). -/
theorem step_searching_of_reading {limit : Option Nat} (hp : s.params = { defaultParams with capSearchLimit := limit })
    {dac iter : Nat} (hdac : dac ≤ 31) (hlimit : limit ≠ some iter) {done m l : Word}
    (hdone : done.getLsbD (3 - ch) = true) (hw : s.wrTape = .ok :: .ok :: ws)
    (hr : s.rdTape = readingReplies done m l ++ rs) :
    ∃ es : List Event, es.length = 6 ∧ step (s.searching ch dac iter) =
      .next ((s.answered ws rs es).decided ch iter (searchStep 31 (capAssemble m l).toInt dac)) := by
  have hvalid : s.params.Valid := hp ▸ valid_defaultParams
  have hceil : s.params.capDacMax = 31 := congrArg Params.capDacMax hp
  have hl : s.params.capSearchLimit = limit := congrArg Params.capSearchLimit hp
  have hbit : doneBit s.params ch (done.extractLsb' 8 8 ++ done.extractLsb' 0 8) = true := by
    rw [hp, extractLsb'_append_halves]
    exact (doneBit_default ch done).trans hdone
  have hturn := step_searching_of_answers hvalid (hceil ▸ hdac) (hl ▸ hlimit) hw hr hbit
  rw [extractLsb'_append_halves, extractLsb'_append_halves, hceil] at hturn
  exact ⟨_, rfl, hturn⟩

/-- A run of one machine step more goes on from where the step leaves it. -/
theorem runSteps_succ_of_step {t : State} (h : step s = .next t) (n : Nat) : runSteps (n + 1) s = runSteps n t := by
  rw [runSteps, h]

theorem runSteps_succ_eq_next {t : State} {n : Nat} :
    runSteps (n + 1) s = .next t ↔ ∃ u, step s = .next u ∧ runSteps n u = .next t := by
  constructor
  · intro h
    cases hs : step s with
    | next u => exact ⟨u, rfl, (runSteps_succ_of_step hs n).symm.trans h⟩
    | fault f => rw [runSteps, hs] at h; cases h
    | refused r => rw [runSteps, hs] at h; cases h
  · rintro ⟨u, hs, h⟩
    exact (runSteps_succ_of_step hs n).trans h

/-- A run of one machine step more makes that step last. -/
theorem runSteps_succ_of_next {t : State} {n : Nat} (h : runSteps n s = .next t) : runSteps (n + 1) s = step t := by
  induction n generalizing s with
  | zero =>
    cases h
    rw [runSteps]
    cases step t <;> rfl
  | succ n ih =>
    obtain ⟨u, hs, hu⟩ := runSteps_succ_eq_next.1 h
    exact (runSteps_succ_of_step hs _).trans (ih hu)

/-! ### Readings that are not MIN24 (41_cap.md R197) -/

/-- From step 2 at calibration value `dac` the search ends within `n` measurements, with another result than
`Underflow`. -/
def State.SearchEndsWithin (s : State) (ch dac iter n : Nat) : Prop :=
  ∃ k t r, k < n ∧ runSteps (k + 1) (s.searching ch dac iter) = .next t ∧ t.Idle ∧
    t.outcome = some (.ok (.range r)) ∧ r ≠ .underflow ∧ t.events.length = s.events.length + 6 * (k + 1) ∧
    t.persistent = s.persistent

variable {es : List Event} {dac iter : Nat}

/-- The search ends with the reading of its next measurement. -/
theorem searchEndsWithin_of_done {n : Nat} {r : RangeResult} (hes : es.length = 6)
    (h : step (s.searching ch dac iter) = .next ((s.answered ws rs es).decided ch iter (.done r)))
    (hr : r ≠ .underflow) :
    s.SearchEndsWithin ch dac iter (n + 1) :=
  ⟨0, _, r, n.succ_pos, runSteps_succ_of_step h 0, idle_finish _ _, rfl, hr,
    List.length_append.trans (congrArg _ hes), rfl⟩

/-- The search goes on after its next measurement, and ends within the measurements left. -/
theorem searchEndsWithin_of_next {n d : Nat} (hes : es.length = 6)
    (h : step (s.searching ch dac iter) = .next ((s.answered ws rs es).decided ch iter (.next d)))
    (hrest : (s.answered ws rs es).SearchEndsWithin ch d (iter + 1) n) : s.SearchEndsWithin ch dac iter (n + 1) := by
  obtain ⟨k, t, r, hk, hrun, hidle, ho, hr, hlen, hkeep⟩ := hrest
  have hone : (s.answered ws rs es).events.length = s.events.length + 6 :=
    List.length_append.trans (congrArg _ hes)
  exact ⟨k + 1, t, r, Nat.succ_lt_succ hk, (runSteps_succ_of_step h _).trans hrun, hidle, ho, hr, by omega, hkeep⟩

/-- Each reading but MIN24 ends the search or moves the calibration value up, which it can do only as often as the
ceiling is away (41_cap.md R197). -/
theorem searchEndsWithin_of_readings {done : Word} {readings : List (Word × Word)} (hp : s.params = defaultParams)
    (hdone : done.getLsbD (3 - ch) = true) (hdac : dac ≤ 31) (hlen : dac + readings.length = 32)
    (hmin : ∀ q ∈ readings, (capAssemble q.1 q.2).toInt ≠ -8388608)
    (hw : s.wrTape = List.replicate (2 * readings.length) .ok ++ ws)
    (hr : s.rdTape = readings.flatMap (fun q => readingReplies done q.1 q.2) ++ rs) :
    s.SearchEndsWithin ch dac iter readings.length := by
  induction readings generalizing s dac iter with
  | nil =>
    rw [List.length_nil] at hlen
    omega
  | cons q readings ih =>
    rw [List.flatMap_cons, List.append_assoc] at hr
    obtain ⟨es, hes, hstep⟩ := step_searching_of_reading (limit := none) (iter := iter) hp hdac nofun hdone hw hr
    rw [searchStep_toInt, if_neg (hmin q List.mem_cons_self)] at hstep
    split_ifs at hstep with hmax hup
    · rw [List.length_cons] at hlen
      exact searchEndsWithin_of_next hes hstep (ih hp hup (by omega) (fun r hr => hmin r (List.mem_cons_of_mem q hr))
        rfl rfl)
    · exact searchEndsWithin_of_done hes hstep nofun
    · exact searchEndsWithin_of_done hes hstep nofun

/-- Settles O44: from calibration value 0 the ceiling is 31 moves away. -/
theorem searchEndsWithin32Measurements : Obligations.SearchEndsWithin32Measurements := by
  intro ch s done readings ws rs _ hp hch hdone hlen hmin hw hr
  obtain ⟨ch, rfl⟩ : ∃ c : Fin 4, c.val = ch := ⟨⟨ch, Nat.lt_succ_of_le hch⟩, rfl⟩
  obtain ⟨k, t, r, hk, hrun, hend⟩ := searchEndsWithin_of_readings (dac := 0) (iter := 0) hp hdone (Nat.zero_le _)
    (by omega) hmin (by rw [hlen]; exact hw) hr
  obtain ⟨s0, hs0, hrun⟩ := runSteps_succ_eq_next.1 hrun
  exact ⟨s0, k, t, r, (exec_capRead_eq_step (hp ▸ valid_defaultParams) ch).trans hs0, by omega, hrun, hend⟩

/-! ### Readings that alternate between the bounds (41_cap.md R198) -/

/-- The bus port's answers to the reads of measurement `j` when the readings alternate, MAX24 first. -/
def alternatingReplies (done : Word) (j : Nat) : List ReadReply :=
  if j % 2 = 0 then readingReplies done 0x7FFF 0xFF00 else readingReplies done 0x8000 0x0000

/-- An alternating reading moves the calibration value to the other of 0 and 1. -/
theorem step_searching_of_alternating {limit : Option Nat}
    (hp : s.params = { defaultParams with capSearchLimit := limit }) {j : Nat} (hlimit : limit ≠ some j) {done : Word}
    (hdone : done.getLsbD (3 - ch) = true) (hw : s.wrTape = .ok :: .ok :: ws)
    (hr : s.rdTape = alternatingReplies done j ++ rs) :
    ∃ es : List Event, es.length = 6 ∧
      step (s.searching ch (j % 2) j) = .next ((s.answered ws rs es).searching ch ((j + 1) % 2) (j + 1)) := by
  rw [alternatingReplies] at hr
  rcases Nat.mod_two_eq_zero_or_one j with hj | hj
  · rw [if_pos hj] at hr
    rw [hj, show (j + 1) % 2 = 1 by omega]
    exact step_searching_of_reading hp (by decide) hlimit hdone hw hr
  · rw [if_neg (by omega)] at hr
    rw [hj, show (j + 1) % 2 = 0 by omega]
    exact step_searching_of_reading hp (by decide) hlimit hdone hw hr

/-- Below the limit the search goes on for one machine step for each alternating reading (41_cap.md R198). -/
theorem runSteps_alternating {limit : Option Nat} (hp : s.params = { defaultParams with capSearchLimit := limit })
    {done : Word} (hdone : done.getLsbD (3 - ch) = true) {n : Nat} (hlimit : ∀ j < n, limit ≠ some j)
    (hw : s.wrTape = List.replicate (2 * n) .ok ++ ws)
    (hr : s.rdTape = (List.range n).flatMap (alternatingReplies done) ++ rs) :
    ∃ es : List Event, es.length = 6 * n ∧
      runSteps n (s.searching ch 0 0) = .next ((s.answered ws rs es).searching ch (n % 2) n) := by
  induction n generalizing ws rs with
  | zero =>
    refine ⟨[], rfl, ?_⟩
    rw [State.answered, List.append_nil, ← show s.wrTape = ws from hw, ← show s.rdTape = rs from hr]
    rfl
  | succ n ih =>
    have hw' : s.wrTape = List.replicate (2 * n) .ok ++ (.ok :: .ok :: ws) := by
      rw [hw, Nat.mul_succ, ← List.replicate_append_replicate, List.append_assoc]
      rfl
    have hr' : s.rdTape = (List.range n).flatMap (alternatingReplies done) ++ (alternatingReplies done n ++ rs) := by
      rw [hr, List.range_succ, List.flatMap_append, List.flatMap_singleton, List.append_assoc]
    obtain ⟨es, hes, hrun⟩ := ih (fun j hj => hlimit j (Nat.lt_succ_of_lt hj)) hw' hr'
    obtain ⟨es', hes', hstep⟩ := step_searching_of_alternating (s := s.answered _ _ es) hp (hlimit n n.lt_succ_self)
      hdone rfl rfl
    refine ⟨es ++ es', by rw [List.length_append, hes, hes', Nat.mul_succ], ?_⟩
    rw [runSteps_succ_of_next hrun, hstep, answered_answered]

/-- Settles O45: the run of the alternating readings, from the start of CAP.READ on, and the turn at the limit. -/
theorem alternatingReadingsOscillate : Obligations.AlternatingReadingsOscillate := by
  intro ch n s done ws rs limit _ hp hch hdone hw hr
  obtain ⟨ch, rfl⟩ : ∃ c : Fin 4, c.val = ch := ⟨⟨ch, Nat.lt_succ_of_le hch⟩, rfl⟩
  have hvalid : s.params.Valid := hp ▸ valid_defaultParams
  have hstart := exec_capRead_eq_step hvalid ch
  have hrun := fun hlimit : ∀ j < n + 1, limit ≠ some j => runSteps_alternating hp hdone hlimit hw hr
  constructor
  · rintro rfl
    obtain ⟨es, -, hsteps⟩ := hrun fun _ _ => nofun
    obtain ⟨s0, hs0, hsteps⟩ := runSteps_succ_eq_next.1 hsteps
    refine ⟨s0, _, hstart.trans hs0, hsteps, rfl, rfl, congrArg some ?_, rfl⟩
    rcases Nat.mod_two_eq_zero_or_one n with hn | hn
    · rw [if_pos hn, show (n + 1) % 2 = 1 by omega]
      rfl
    · rw [if_neg (by omega), show (n + 1) % 2 = 0 by omega]
      rfl
  · rintro rfl
    obtain ⟨es, hes, hsteps⟩ := hrun fun j hj hlimit => hj.ne (Option.some.inj hlimit).symm
    have hdac : (n + 1) % 2 ≤ s.params.capDacMax := by
      rw [congrArg Params.capDacMax hp]
      exact (Nat.mod_lt (n + 1) two_pos).le.trans (show 2 ≤ 31 by decide)
    have hlimit : s.params.capSearchLimit = some (n + 1) := congrArg Params.capSearchLimit hp
    have hlast := (runSteps_succ_of_next hsteps).trans
      (step_searching_of_limit (s := s.answered ws rs es) hvalid ch hdac hlimit)
    obtain ⟨s0, hs0, hlast⟩ := runSteps_succ_eq_next.1 hlast
    exact ⟨s0, _, hstart.trans hs0, hlast, idle_finish _ _, rfl, List.length_append.trans (congrArg _ hes)⟩

end

end Sys2Proof.Machine
end

section
/-! PROOFS. The shift-register operations (spec/42_shift.md R221 to R232). A transmit writes its events and leaves the
lines low, whatever operation makes it and whatever label it stands at, so each operation's rule follows from that
one. -/

namespace Sys2Proof.Machine

/-! ## The index check -/

/-- Behind the index check an operation does what it does with the position (42_shift.md R221). -/
theorem next_checkIndex_of_lt {i : Nat} (h : i < 16) {s t : State} {k : Fin 16 → State → State}
    (hk : k ⟨i, h⟩ s = t) : (.next (checkIndex i s k) : Result) = .next t := by
  rw [checkIndex, dif_pos h, hk]

/-- An index above 15 ends an operation that has done no more than set its label (42_shift.md R221). -/
theorem next_checkIndex_of_le {s : State} (hs : s.Idle) {i : Nat} (h : 16 ≤ i) (q : Seq)
    (k : Fin 16 → State → State) :
    (.next (checkIndex i (goTo s q) k) : Result) = .next { s with outcome := some (.indexOutOfRange i) } := by
  rw [checkIndex, dif_neg h.not_gt, raise_goTo, raise_of_idle hs]

/-- Setting one position of the frame and returning changes the frame and the outcome (42_shift.md R222, R223). -/
theorem returnOk_setFrame_of_idle {s : State} (hs : s.Idle) (i : Fin 16) (b : Bool) (q : Seq) :
    returnOk (setFrame i b (goTo s q)) .none =
      { s with frame := s.frame.set i b, outcome := some (.ok .none) } :=
  returnOk_of_idle (s := setFrame i b s) hs .none

/-- Settles O49: the index check decides, and behind it stands one frame bit. -/
theorem srIndexOperations : Obligations.SrIndexOperations := by
  intro i s hs
  refine ⟨fun h => ⟨?_, ?_, ?_⟩, fun h => ?_⟩
  · exact next_checkIndex_of_lt h (returnOk_setFrame_of_idle hs ⟨i, h⟩ true .single)
  · exact next_checkIndex_of_lt h (returnOk_setFrame_of_idle hs ⟨i, h⟩ false .single)
  · exact next_checkIndex_of_lt h (returnOk_of_idle hs (.bool s.frame[i]))
  · have hfail := next_checkIndex_of_le hs h
    exact ⟨hfail _ _, hfail _ _, hfail _ _, hfail _ _, hfail _ _⟩

/-! ## The packed word -/

/-- Bit `i` of the packed word is position `i` of the frame (42_shift.md R225). -/
theorem getLsbD_packFrame (frame : Frame) (i : Fin 16) : (packFrame frame).getLsbD i = frame[i] := by
  have hbit : (unpackFrame (packFrame frame))[i] = (packFrame frame).getLsbD i := Vector.getElem_ofFn i.isLt
  rw [← hbit, unpackFrame_packFrame]

/-- Settles O50: the word is the packed frame, which unpacks to the frame. -/
theorem srPackGivesTheFrameWord : Obligations.SrPackGivesTheFrameWord := fun s hs =>
  ⟨packFrame s.frame, congrArg Host.Outcome.next (returnOk_of_idle hs _), getLsbD_packFrame s.frame,
    unpackFrame_packFrame s.frame⟩

/-! ## The events of a transmit -/

/-- The six events of one bit (42_shift.md R228 a to f). -/
def bitEvents (w : Word) (i : Nat) : List Event :=
  [.pin .ser (w.getLsbD i), .delay .us 1, .pin .srclk true, .delay .us 1, .pin .srclk false, .delay .us 1]

/-- The four events after the last bit (42_shift.md R228 g to j). -/
def latchEvents : List Event := [.pin .ser false, .pin .rclk true, .delay .us 5, .pin .rclk false]

theorem frameEvents_eq (w : Word) : frameEvents w = (List.range 16).flatMap (bitEvents w) ++ latchEvents := rfl

/-- The microseconds an event asks for. -/
def Event.microseconds (e : Event) : Nat := match e with | .delay .us n => n | _ => 0

/-! Each tally is sixteen times that of one bit's events, and that of the latch's four. -/

section
variable (w : Word)

theorem length_frameEvents : (frameEvents w).length = 100 := by
  simp [frameEvents_eq, List.length_flatMap, bitEvents, latchEvents]

theorem count_srclk_frameEvents : (frameEvents w).count (.pin .srclk true) = 16 := by
  simp [frameEvents_eq, List.count_flatMap, bitEvents, latchEvents, Function.comp_def]

theorem count_rclk_frameEvents : (frameEvents w).count (.pin .rclk true) = 1 := by
  simp [frameEvents_eq, List.count_flatMap, bitEvents, latchEvents, Function.comp_def]

theorem sum_microseconds_frameEvents : ((frameEvents w).map Event.microseconds).sum = 53 := by
  simp [frameEvents_eq, List.flatMap_def, bitEvents, latchEvents, Event.microseconds, Function.comp_def]

end

/-! ## The transmit -/

/-- `s` after a transmit of `w` that has returned its index: its events have happened and the lines are low
(42_shift.md R228). -/
def State.sent (s : State) (w : Word) : State :=
  { s with ser := false, srclk := false, rclk := false, srIdx := none, events := s.events ++ frameEvents w }

/-- Steps a to f for one bit (42_shift.md R228). -/
theorem txBit_eq (at_ : Nat → TxStep → Seq) (w : Word) (s : State) (i : Nat) :
    txBit at_ w s i = goTo { s with
      ser := w.getLsbD i, srclk := false, srIdx := some i, events := s.events ++ bitEvents w i } (at_ i .f) := by
  simp [txBit, pin, delay, emit, setLine, goTo, bitEvents, tSetup, tHigh, tLow]

/-- The bits up to bit `n` (42_shift.md R228): the line and the index stand where the last bit has put them. -/
theorem foldl_txBit (at_ : Nat → TxStep → Seq) (w : Word) (s : State) (n : Nat) :
    (List.range (n + 1)).foldl (txBit at_ w) s = goTo { s with
      ser := w.getLsbD n, srclk := false, srIdx := some n
      events := s.events ++ (List.range (n + 1)).flatMap (bitEvents w) } (at_ n .f) := by
  induction n with
  | zero => simpa using txBit_eq at_ w s 0
  | succ n ih =>
    rw [List.range_succ, List.foldl_append, ih, List.foldl_cons, List.foldl_nil, txBit_eq, List.flatMap_append,
      List.flatMap_singleton, ← List.append_assoc]
    rfl

/-- A transmit, whose last label the next step or the return overwrites (42_shift.md R228). -/
theorem transmit_eq (at_ : Nat → TxStep → Seq) (w : Word) (s : State) :
    transmit at_ w s = goTo (s.sent w) (at_ 16 .j) := by
  rw [transmit, txShift, foldl_txBit]
  simp [txLatch, pin, delay, emit, setLine, goTo, State.sent, frameEvents_eq, latchEvents, tLatch]

/-- From an idle state a transmit leaves nothing of its index (10_state.md R35). -/
theorem sent_of_idle {s : State} (hs : s.Idle) (w : Word) : s.sent w = { s with
    ser := false, srclk := false, rclk := false, events := s.events ++ frameEvents w } := by
  obtain ⟨-, -, -, -, -, hidx⟩ := hs
  rw [State.sent, ← hidx]

theorem idle_sent {s : State} (hs : s.Idle) (w : Word) : (s.sent w).Idle := by
  rw [sent_of_idle hs]
  exact hs

/-- SR.TX from any state (42_shift.md R228). -/
theorem exec_srTx (w : Word) (s : State) : exec (.srTx w) s = .next (returnOk (s.sent w) .none) := by
  refine congrArg Host.Outcome.next ?_
  rw [transmit_eq, returnOk_goTo]

/-- SR.TX from an idle state (42_shift.md R228). -/
theorem exec_srTx_of_idle {s : State} (hs : s.Idle) (w : Word) : exec (.srTx w) s = .next { s with
    ser := false, srclk := false, rclk := false
    events := s.events ++ frameEvents w
    outcome := some (.ok .none) } := by
  rw [exec_srTx, returnOk_of_idle (idle_sent hs w), sent_of_idle hs]

/-- Settles O51: the transmit adds the hundred events, which are counted bit by bit. -/
theorem srTxSendsTheWord : Obligations.SrTxSendsTheWord := fun w _ hs =>
  ⟨exec_srTx_of_idle hs w, length_frameEvents w, count_srclk_frameEvents w, count_rclk_frameEvents w,
    sum_microseconds_frameEvents w⟩

/-! ## The composite operations -/

/-- `s` after one line of a composite operation: position `i` is set to `b`, and the frame that results is sent
(42_shift.md R231, R232). -/
def State.applied (s : State) (i : Fin 16) (b : Bool) : State :=
  (setFrame i b s).sent (packFrame (s.frame.set i b))

theorem applyLine_goTo (line : Nat) (i : Fin 16) (b : Bool) (s : State) (q : Seq) :
    applyLine line i b (goTo s q) = goTo (s.applied i b) (.srPairTx line 16 .j) :=
  transmit_eq (.srPairTx line) (packFrame (s.frame.set i b)) (setFrame i b (goTo (goTo s q) (.srPair line)))

section
variable {s : State} (hs : s.Idle) (i : Fin 16)
include hs

theorem idle_applied (b : Bool) : (s.applied i b).Idle := idle_sent (s := setFrame i b s) hs _

theorem applied_of_idle (b : Bool) : s.applied i b = { s with
    frame := s.frame.set i b
    ser := false, srclk := false, rclk := false
    events := s.events ++ frameEvents (packFrame (s.frame.set i b)) } :=
  sent_of_idle (s := setFrame i b s) hs _

/-- Of two settings of one position the second stays, and both frames are sent in turn. -/
theorem applied_applied_of_idle (b b' : Bool) : (s.applied i b).applied i b' = { s with
    frame := s.frame.set i b'
    ser := false, srclk := false, rclk := false
    events := s.events ++ frameEvents (packFrame (s.frame.set i b)) ++
      frameEvents (packFrame (s.frame.set i b')) } := by
  rw [applied_of_idle (idle_applied hs i b), applied_of_idle hs, Vector.set_set]

/-- A composite operation whose index passes the check (42_shift.md R231, R232). -/
theorem applyPair_of_idle (b b' : Bool) :
    returnOk (goTo (applyLine 3 i b' (applyLine 2 i b (goTo s (.srPair 1)))) (.srPair 4)) .none = { s with
      frame := s.frame.set i b'
      ser := false, srclk := false, rclk := false
      events := s.events ++ frameEvents (packFrame (s.frame.set i b)) ++ frameEvents (packFrame (s.frame.set i b'))
      outcome := some (.ok .none) } := by
  have hidle := idle_applied (idle_applied hs i b) i b'
  rw [applyLine_goTo, applyLine_goTo, returnOk_goTo, returnOk_goTo, returnOk_of_idle hidle,
    applied_applied_of_idle hs]

end

/-- SR.FLUSH is SR.TX of the packed frame (42_shift.md R230). -/
theorem exec_srFlush (s : State) : exec .srFlush s = exec (.srTx (packFrame s.frame)) s := rfl

/-- Settles O52: SR.FLUSH is one transmit, and the other two operations are two transmits behind the index check. -/
theorem srCompositeOperations : Obligations.SrCompositeOperations := by
  intro s hs
  refine ⟨(exec_srFlush s).trans (exec_srTx_of_idle hs _), fun i h => ⟨?_, ?_⟩, fun i h => ?_⟩
  · exact next_checkIndex_of_lt h (applyPair_of_idle hs ⟨i, h⟩ true false)
  · exact next_checkIndex_of_lt h (applyPair_of_idle hs ⟨i, h⟩ false true)
  · obtain ⟨-, hfail⟩ := srIndexOperations i s hs
    obtain ⟨-, -, -, happlyclr, hclrapply⟩ := hfail h
    exact ⟨happlyclr, hclrapply⟩

end Sys2Proof.Machine
end

section
/-! PROOFS. What the reference receiver makes of a transmit (spec/42_shift.md R229 e, spec/20_memory.md R69). Each bit's
six events move the stages on by one and leave the clock lines low; the outputs change at the rise of the latch clock
alone, which is the second event of the four after the bits. -/

namespace Sys2Proof.Machine

/-! ## The receiver -/

theorem receiveAll_append (r : Receiver) (es es' : List Event) :
    receiveAll r (es ++ es') = receiveAll (receiveAll r es) es' := List.foldl_append

theorem receiveAll_cons (r : Receiver) (e : Event) (es : List Event) :
    receiveAll r (e :: es) = receiveAll (receive r e) es := rfl

/-- Events among which the latch clock does not rise leave the outputs (20_memory.md R69). -/
theorem receiveAll_outputs_of_no_latch (r : Receiver) {es : List Event} (h : ∀ e ∈ es, e ≠ .pin .rclk true) :
    (receiveAll r es).outputs = r.outputs := by
  refine List.foldlRecOn (motive := fun r' => r'.outputs = r.outputs) es receive rfl fun r' hr' e he => ?_
  rw [← hr']
  match e, h e he with
  | .pin .rclk false, _ => simp [receive]
  | .pin .ser _, _ | .pin .srclk _, _ | .delay _ _, _ | .busWrite .., _ | .busRead .., _ | .pwm .., _ => rfl
  | .pin .rclk true, hlatch => exact absurd rfl hlatch

/-! ## The bits -/

/-- One bit moves the stages on by one, and the shift clock is low again (42_shift.md R228 a to f). -/
theorem receiveAll_bitEvents {r : Receiver} (h : r.srclk = false) (w : Word) (i : Nat) :
    receiveAll r (bitEvents w i) =
      { r with ser := w.getLsbD i, stages := shiftIn r.stages (w.getLsbD i) } := by
  simp [receiveAll, bitEvents, receive, h]

/-- After `n` bits stage `k` holds the bit sent `k` before the last one, and the clock lines are as they were
(20_memory.md R69). -/
theorem receiveAll_bits {r : Receiver} (h : r.srclk = false) (w : Word) (n : Nat) :
    let r' := receiveAll r ((List.range n).flatMap (bitEvents w))
    r'.srclk = false ∧ r'.rclk = r.rclk ∧
      ∀ (k : Nat) (hk : k < 16), k < n → r'.stages[k] = w.getLsbD (n - 1 - k) := by
  induction n with
  | zero => exact ⟨h, rfl, nofun⟩
  | succ n ih =>
    obtain ⟨hsrclk, hrclk, hstages⟩ := ih
    rw [List.range_succ, List.flatMap_append, List.flatMap_singleton, receiveAll_append, receiveAll_bitEvents hsrclk]
    refine ⟨hsrclk, hrclk, fun k hk hkn => ?_⟩
    rw [shiftIn, Vector.getElem_ofFn]
    cases k with
    | zero => rfl
    | succ k =>
      rw [if_neg (Nat.succ_ne_zero k)]
      exact (hstages k (by omega) (by omega)).trans (congrArg w.getLsbD (by omega))

/-! ## The transmit -/

/-- The events of a transmit before the rise of the latch clock. -/
def eventsToLatch (w : Word) : List Event := (List.range 16).flatMap (bitEvents w) ++ [.pin .ser false]

theorem frameEvents_eq_eventsToLatch_append (w : Word) :
    frameEvents w = eventsToLatch w ++ .pin .rclk true :: [.delay .us 5, .pin .rclk false] := by
  rw [frameEvents_eq, eventsToLatch, List.append_assoc]
  rfl

theorem length_eventsToLatch (w : Word) : (eventsToLatch w).length = 97 := by
  simp [eventsToLatch, List.length_flatMap, bitEvents]

theorem no_latch_eventsToLatch (w : Word) : ∀ e ∈ eventsToLatch w, e ≠ .pin .rclk true := by
  rintro e he rfl
  simp [eventsToLatch, bitEvents] at he

/-- Up to its 97th event a transmit leaves the outputs (42_shift.md R229 e). -/
theorem outputs_before_latch (r : Receiver) (w : Word) {n : Nat} (hn : n ≤ 97) :
    (receiveAll r ((frameEvents w).take n)).outputs = r.outputs := by
  rw [frameEvents_eq_eventsToLatch_append, List.take_append_of_le_length (hn.trans_eq (length_eventsToLatch w).symm)]
  exact receiveAll_outputs_of_no_latch r fun e he => no_latch_eventsToLatch w e (List.mem_of_mem_take he)

/-- From its 98th event on a transmit leaves the outputs as the rise of the latch clock has put them
(42_shift.md R229 e). -/
theorem outputs_from_latch (r : Receiver) (w : Word) {n : Nat} (hn : 98 ≤ n) :
    (receiveAll r ((frameEvents w).take n)).outputs =
      (receive (receiveAll r (eventsToLatch w)) (.pin .rclk true)).outputs := by
  obtain ⟨m, rfl⟩ : ∃ m, n = (eventsToLatch w).length + (m + 1) :=
    ⟨n - 98, by have := length_eventsToLatch w; omega⟩
  rw [frameEvents_eq_eventsToLatch_append, List.take_length_add_append, List.take_succ_cons, receiveAll_append,
    receiveAll_cons]
  refine receiveAll_outputs_of_no_latch _ fun e he => ?_
  have hmem := List.mem_of_mem_take he
  rintro rfl
  simp at hmem

/-- At the rise of the latch clock output `k` becomes bit `15 - k` of the word (42_shift.md R229 e). -/
theorem outputs_at_latch {r : Receiver} (hsrclk : r.srclk = false) (hrclk : r.rclk = false) (w : Word) (k : Fin 16) :
    (receive (receiveAll r (eventsToLatch w)) (.pin .rclk true)).outputs[k] = w.getLsbD (15 - k) := by
  obtain ⟨-, hlow, hstages⟩ := receiveAll_bits hsrclk w 16
  rw [eventsToLatch, receiveAll_append, ← hstages k k.isLt k.isLt]
  have hlow' := hlow.trans hrclk
  generalize receiveAll r ((List.range 16).flatMap (bitEvents w)) = r' at hlow' ⊢
  simp [receiveAll, receive, hlow']

/-- The events a transmit adds to the history (42_shift.md R228). -/
theorem events_of_exec_srTx {w : Word} {s t : State} (h : exec (.srTx w) s = .next t) :
    t.events.drop s.events.length = frameEvents w := by
  obtain rfl : returnOk (s.sent w) .none = t := Host.Outcome.next.inj ((exec_srTx w s).symm.trans h)
  exact List.drop_left

/-- Settles O53: up to the 97th event the latch clock does not rise; from the 98th on it has risen once, on the stages
the sixteen bits have filled, and does not rise again. -/
theorem receiverOutputsChangeOnlyAtTheLatch : Obligations.ReceiverOutputsChangeOnlyAtTheLatch := by
  intro w s t r n ht hsrclk hrclk
  rw [events_of_exec_srTx ht]
  refine ⟨outputs_before_latch r w, fun hn k => ?_⟩
  rw [outputs_from_latch r w hn, outputs_at_latch hsrclk hrclk]

end Sys2Proof.Machine
end

section
/-! PROOFS. The PWM quantizer (spec/43_pwm.md R252 to R258). Each operation is a chain of operand checks before a return
from an idle state, so its rule is that the checks pass, or which of them refuses. The values are bounded as a quotient
and a rounding are. -/

namespace Sys2Proof.Machine

/-! ## The divider and the quotient -/

theorem pwmDivider_pos (f : BitVec 32) : 0 < pwmDivider f := by
  unfold pwmDivider
  split_ifs <;> decide

/-- The divider does not increase with the frequency (43_pwm.md R258 a): the ranges of R252 go up while their dividers
go down. -/
theorem pwmDivider_anti {f g : BitVec 32} (h : f.toNat ≤ g.toNat) : pwmDivider g ≤ pwmDivider f := by
  unfold pwmDivider
  split_ifs <;> omega

theorem mul_pwmDivider_pos {f : BitVec 32} (hf : f.toNat ≠ 0) : 0 < f.toNat * pwmDivider f :=
  Nat.mul_pos (Nat.pos_of_ne_zero hf) (pwmDivider_pos f)

/-- The quotient is 0 exactly where the divided frequency is above the reference clock (43_pwm.md R253). -/
theorem pwmQuotient_eq_zero_iff {p : Params} {f : BitVec 32} (hf : f.toNat ≠ 0) :
    pwmQuotient p f = 0 ↔ p.refClkHz < f.toNat * pwmDivider f :=
  Nat.div_eq_zero_iff_lt (mul_pwmDivider_pos hf)

theorem pwmQuotient_ne_zero_iff {p : Params} {f : BitVec 32} (hf : f.toNat ≠ 0) :
    pwmQuotient p f ≠ 0 ↔ f.toNat * pwmDivider f ≤ p.refClkHz :=
  (pwmQuotient_eq_zero_iff hf).not.trans not_lt

/-- The top and the quotient are one apart where the quotient is not 0 (43_pwm.md R253). -/
theorem pwmTopOf_false_add_one {p : Params} {f : BitVec 32} (hq : pwmQuotient p f ≠ 0) :
    pwmTopOf p f false + 1 = pwmQuotient p f := Nat.sub_one_add_one hq

/-- The top brackets the reference clock (43_pwm.md R258 b). -/
theorem pwmTopOf_false_brackets {p : Params} {f : BitVec 32} (hf : f.toNat ≠ 0)
    (hle : f.toNat * pwmDivider f ≤ p.refClkHz) :
    (pwmTopOf p f false + 1) * f.toNat * pwmDivider f ≤ p.refClkHz ∧
    p.refClkHz < (pwmTopOf p f false + 2) * f.toNat * pwmDivider f := by
  have htop := pwmTopOf_false_add_one ((pwmQuotient_ne_zero_iff hf).2 hle)
  have hnext : pwmTopOf p f false + 2 = pwmQuotient p f + 1 := congrArg (· + 1) htop
  rw [hnext, htop, Nat.mul_assoc, Nat.mul_assoc]
  exact ⟨Nat.div_mul_le_self _ _, Nat.lt_mul_of_div_lt (Nat.lt_succ_self _) (mul_pwmDivider_pos hf)⟩

/-! ## The rounding -/

theorem roundHaz_eq_floor (q : Rat) : roundHaz q = ⌊q + 1 / 2⌋₊ := rfl

/-- The rounding is to the nearest integer, a tie going up (00_scope.md R8). -/
theorem roundHaz_bounds {q : Rat} (hq : 0 ≤ q) : (roundHaz q : Rat) - 1 / 2 ≤ q ∧ q < (roundHaz q : Rat) + 1 / 2 := by
  rw [roundHaz_eq_floor]
  have hlow := Nat.floor_le (show 0 ≤ q + 1 / 2 by linarith)
  have hhigh := Nat.lt_floor_add_one (q + 1 / 2)
  constructor <;> linarith

/-- The rounding does not go above an integer that bounds the value. -/
theorem roundHaz_le {q : Rat} {n : Nat} (h : q ≤ n) : roundHaz q ≤ n := by
  have hlt : q + 1 / 2 < (n + 1 : Nat) := by push_cast; linarith
  rw [roundHaz_eq_floor]
  exact Nat.lt_succ_iff.1 ((Nat.floor_lt' n.succ_ne_zero).2 hlt)

/-- A duty of at most 100 per cent takes at most the top (43_pwm.md R258 c). -/
theorem pwmCompareOf_le {duty : Rat} (top : Nat) (h : duty ≤ 100) : pwmCompareOf duty top ≤ top := by
  refine roundHaz_le ?_
  have hprod : duty * top ≤ 100 * top := mul_le_mul_of_nonneg_right h top.cast_nonneg
  linarith

/-- Settles O58: the divider's ranges, the quotient's bounds, the rounding of at most the top, and the definition of the
top. -/
theorem pwmLaws : Obligations.PwmLaws :=
  ⟨fun _ _ => pwmDivider_anti, fun _ _ => pwmTopOf_false_brackets, fun _ top _ => pwmCompareOf_le top, fun _ _ => rfl⟩

/-! ## The operand checks -/

theorem needFrequency_of_toNat_eq_zero {f : BitVec 32} (hf : f.toNat = 0) (r : Result) :
    needFrequency f r = .refused .frequencyZero := if_pos (BitVec.eq_of_toNat_eq hf)

theorem needFrequency_of_toNat_ne_zero {f : BitVec 32} (hf : f.toNat ≠ 0) (r : Result) :
    needFrequency f r = r := if_neg (mt (congrArg BitVec.toNat) hf)

theorem needQuotient_of_eq_zero {p : Params} {f : BitVec 32} (hq : pwmQuotient p f = 0) (r : Result) :
    needQuotient p f r = .refused .frequencyAboveReference := if_pos hq

theorem needDuty_of_outside {duty : Rat} (h : duty < 0 ∨ 100 < duty) (r : Result) :
    needDuty duty r = .refused .dutyOutOfDomain := if_pos h

theorem needDuty_of_inside {duty : Rat} (hlow : 0 ≤ duty) (hhigh : duty ≤ 100) (r : Result) :
    needDuty duty r = r := if_neg (not_or.2 ⟨hlow.not_gt, hhigh.not_gt⟩)

theorem needTop_of_le {p : Params} {top : Nat} (h : p.refClkHz ≤ top) (r : Result) :
    needTop p top r = .refused (.topOutOfDomain top) := if_neg h.not_gt

/-- A check refuses where its operand lies outside, or what it guards refuses. -/
theorem refuses_unless {outside : Prop} [Decidable outside] {refusal : Refusal} {r : Result}
    (h : ¬ outside → ∃ e, r = .refused e) : ∃ e, (if outside then .refused refusal else r) = .refused e := by
  split
  · exact ⟨refusal, rfl⟩
  · next hin => exact h hin

/-! ## The operations with their operands inside -/

section
variable {s : State} (hs : s.Idle) {f : BitVec 32} (hf : f.toNat ≠ 0)
include hs

/-- A duty inside and a top in its domain give the compare value (43_pwm.md R254). -/
theorem exec_pwmCmp_of_inside {duty : Rat} {top : Nat} (hlow : 0 ≤ s.params.carried duty)
    (hhigh : s.params.carried duty ≤ 100) (htop : top < s.params.refClkHz) :
    exec (.pwmCmp duty top) s =
      .next { s with outcome := some (.ok (.compare (pwmCompareOf (s.params.carried duty) top))) } :=
  needDuty_eq_next.2 ⟨⟨hlow, hhigh⟩, needTop_eq_next.2 ⟨htop, next_returnOk_goTo_of_idle hs _ _⟩⟩

include hf

/-- A frequency that is not 0 gives the divider (43_pwm.md R252). -/
theorem exec_pwmDiv_of_ne_zero :
    exec (.pwmDiv f) s = .next { s with outcome := some (.ok (.div (pwmDivider f))) } :=
  (needFrequency_of_toNat_ne_zero hf _).trans (next_returnOk_goTo_of_idle hs _ _)

/-- A frequency that is not 0 and whose quotient is not gives the top (43_pwm.md R253). -/
theorem exec_pwmTop_of_quotient (phaseCorrect : Bool) (hq : pwmQuotient s.params f ≠ 0) :
    exec (.pwmTop f phaseCorrect) s = .next { s with outcome := some (.ok (.top (pwmTopOf s.params f phaseCorrect)
      (fitFlag s.params (pwmTopOf s.params f phaseCorrect)))) } :=
  (needFrequency_of_toNat_ne_zero hf _).trans <|
    needQuotient_eq_next.2 ⟨hq, next_returnOk_goTo_of_idle hs _ _⟩

end

/-- Settles O54: the frequency check decides, and behind it stands the return of the divider. -/
theorem pwmDivLooksUpTheDivider : Obligations.PwmDivLooksUpTheDivider := fun _ _ hs =>
  ⟨fun hf => needFrequency_of_toNat_eq_zero hf _, exec_pwmDiv_of_ne_zero hs⟩

/-- Settles O55: the frequency check, then the quotient check, and behind them the return of the top. -/
theorem pwmTopComputesTheTop : Obligations.PwmTopComputesTheTop := by
  intro f phaseCorrect s hs
  refine ⟨fun hf => needFrequency_of_toNat_eq_zero hf _, fun hf hgt => ?_, fun hf hle => ?_⟩
  · exact (needFrequency_of_toNat_ne_zero hf _).trans (needQuotient_of_eq_zero ((pwmQuotient_eq_zero_iff hf).2 hgt) _)
  · exact exec_pwmTop_of_quotient hs hf phaseCorrect ((pwmQuotient_ne_zero_iff hf).2 hle)

/-- Settles O56: the duty check, then the check of the top, and behind them the return of the rounded product. -/
theorem pwmCmpRoundsToNearest : Obligations.PwmCmpRoundsToNearest := by
  intro duty top s hs d
  refine ⟨fun hout => needDuty_of_outside hout _, fun hlow hhigh hle => ?_, fun hlow hhigh htop => ?_⟩
  · exact (needDuty_of_inside hlow hhigh _).trans (needTop_of_le hle _)
  · have hprod : 0 ≤ d * top / 100 := div_nonneg (mul_nonneg hlow top.cast_nonneg) (by norm_num)
    obtain ⟨hbelow, habove⟩ := roundHaz_bounds hprod
    exact ⟨pwmCompareOf d top, exec_pwmCmp_of_inside hs hlow hhigh htop, hbelow, habove, pwmCompareOf_le top hhigh⟩

/-- Settles O57: inside the domains every check passes, and the top is in the domain PWM.CMP asks of it; outside them
one of the four checks refuses. -/
theorem pwmSetCombinesTheThree : Obligations.PwmSetCombinesTheThree := by
  intro f dutyA dutyB phaseCorrect s hs a b
  refine ⟨fun hf hle ha0 ha100 hb0 hb100 => ?_, fun hout => ?_⟩
  · have hq := (pwmQuotient_ne_zero_iff hf).2 hle
    have htop := pwmTopOf_lt_refClkHz phaseCorrect hq
    refine ⟨_, _, _, _, _, exec_pwmDiv_of_ne_zero hs hf, exec_pwmTop_of_quotient hs hf phaseCorrect hq,
      exec_pwmCmp_of_inside hs ha0 ha100 htop, exec_pwmCmp_of_inside hs hb0 hb100 htop, ?_⟩
    exact (needFrequency_of_toNat_ne_zero hf _).trans <| needQuotient_eq_next.2 ⟨hq, needDuty_eq_next.2 ⟨⟨ha0, ha100⟩,
      needDuty_eq_next.2 ⟨⟨hb0, hb100⟩, congrArg Host.Outcome.next (returnOk_of_idle (s := emit s _) hs _)⟩⟩⟩
  · refine refuses_unless fun hf => refuses_unless fun hq => refuses_unless fun ha => refuses_unless fun hb => ?_
    have hf' : f.toNat ≠ 0 := fun h0 => hf (BitVec.eq_of_toNat_eq h0)
    rcases hout with h0 | habove | ha0 | ha100 | hb0 | hb100
    · exact absurd h0 hf'
    · exact absurd ((pwmQuotient_eq_zero_iff hf').2 habove) hq
    · exact absurd (.inl ha0) ha
    · exact absurd (.inr ha100) ha
    · exact absurd (.inl hb0) hb
    · exact absurd (.inr hb100) hb

end Sys2Proof.Machine
end

section
/-! PROOFS. How operations end (spec/60_exceptions.md R279, R283): which errors each can end with, which can be left
running, and that an error leaves the persistent registers as they were.

Between its first transaction and its end or pause an operation writes no persistent register and hands over no outcome
(`Steady`). So every shared operation gets one rule, of how a run through it ends or pauses in such a state
(`EndsOrPauses`). The rules are stated for any errors and pauses that are allowed, so that they serve an operation that
is accepted, with its rows of the outcome table (`MayEndWith`, `MayPause`), and a turn of a running one alike. -/

namespace Sys2Proof.Machine

/-! ## The outcome table (60_exceptions.md R279) -/

/-- The operations that can end with an outcome, a column of the table for each error, with what the error records. -/
def MayEndWith (p : Params) (i : Instr) : OpOutcome → Prop
  | .ok _ => True
  | .wrongAddress a => i = .adcNew a
  | .busError _ =>
    (∃ c, i = .adcWrcfg c) ∨ i = .adcRdcfg ∨ (∃ m, i = .adcRdsingle m) ∨ i = .adcRdv ∨ i = .adcRdy ∨
      (∃ ch d, i = .capMeas ch d) ∨ ∃ ch, i = .capRead ch
  | .measurementNotComplete ch => (∃ d, i = .capMeas ch d) ∨ i = .capRead ch
  | .indexOutOfRange n =>
    15 < n ∧ (i = .srSet n ∨ i = .srClr n ∨ i = .srGet n ∨ i = .srApplyclr n ∨ i = .srClrapply n)
  | .conversionTimeout n => p.adcPollLimit = some n ∧ ∃ m, i = .adcRdsingle m
  | .searchNotConverged n => p.capSearchLimit = some n ∧ ∃ ch, i = .capRead ch

/-- The operations that can be left running. -/
def MayPause (i : Instr) : Prop := (∃ m, i = .adcRdsingle m) ∨ ∃ ch, i = .capRead ch

/-! ## Between the first transaction and the end -/

/-- `u` has the parameters, the persistent registers and the outcome of `s`. -/
def Steady (s u : State) : Prop :=
  u.params = s.params ∧ u.persistent = s.persistent ∧ u.outcome = s.outcome

/-- A run from `s` that has come to rest: it has ended, with `Ok` or with an error that `E` allows, or it pauses at a
label that `P` allows; and it leaves the persistent registers as they were. -/
inductive EndsOrPauses (E : OpOutcome → Prop) (P : Seq → Prop) (s : State) : State → Prop
  | ended {u : State} {o : OpOutcome} (h : Steady s u) (ho : o.isError = true → E o) : EndsOrPauses E P s (finish u o)
  | paused {u : State} {q : Seq} (h : Steady s u) (hq : P q) : EndsOrPauses E P s (goTo u q)

section
variable {s t u v : State} {E : OpOutcome → Prop} {P : Seq → Prop}

theorem Steady.refl (s : State) : Steady s s := ⟨rfl, rfl, rfl⟩

theorem Steady.goTo (h : Steady s u) (q : Seq) : Steady s (goTo u q) := h

/-- Labels, events and the answers of the bus port are none of what stays. -/
theorem Steady.of_kept (h : Steady s u) (hv : v.kept = u.kept) : Steady s v :=
  show Steady s v.kept from hv ▸ h

/-! ### What a run that has come to rest says -/

theorem EndsOrPauses.persistent_eq (h : EndsOrPauses E P s t) : t.persistent = s.persistent := by
  cases h with
  | ended h | paused h =>
    obtain ⟨-, hpers, -⟩ := h
    exact hpers

/-- An error that is handed over is one of those allowed: a run that pauses has handed over none. -/
theorem EndsOrPauses.error_allowed (h : EndsOrPauses E P s t) (hs : s.outcome = none) {o : OpOutcome}
    (ht : t.outcome = some o) (ho : o.isError = true) : E o := by
  cases h with
  | ended h hE =>
    cases ht
    exact hE ho
  | paused h hq =>
    obtain ⟨-, -, hout⟩ := h
    cases ht.symm.trans (hout.trans hs)

/-- A run that is left running stands at a label that is allowed, and has handed over no outcome. -/
theorem EndsOrPauses.pause_allowed (h : EndsOrPauses E P s t) (hs : s.outcome = none) (hb : t.busy = true) :
    (∃ q, t.seq = some q ∧ P q) ∧ t.outcome = none := by
  cases h with
  | ended h hE => cases hb
  | @paused u q h hq =>
    obtain ⟨-, -, hout⟩ := h
    exact ⟨⟨q, rfl, hq⟩, hout.trans hs⟩

/-! ## The end of a run, and the transactions -/

theorem Steady.returnOk (h : Steady s u) (value : Value) : EndsOrPauses E P s (returnOk u value) := .ended h nofun

theorem Steady.raise (h : Steady s u) {o : OpOutcome} (ho : E o) : EndsOrPauses E P s (raise u o) :=
  .ended h fun _ => ho

/-- What a reading decides ends the run with `Ok` or pauses it at step 2 (41_cap.md R194). -/
theorem Steady.carryOut (h : Steady s u) {ch : Nat} (hpause : P (.capRead ch 2)) (raw : Int) (decision : SearchStep) :
    EndsOrPauses E P s (carryOut ch raw decision u) := by
  have hpassed := h.of_kept (passSteps_decisionStep_kept ch raw decision u)
  cases decision with
  | done r => exact hpassed.returnOk _
  | next d => exact .paused hpassed hpause

section
variable (hbus : ∀ e, E (.busError e))
include hbus

/-- A write transaction ends the run with a bus error, or hands on a state of the run (20_memory.md R55, R57). -/
theorem Steady.memWrite (h : Steady s u) {dev : Addr7} {reg : Byte} {w : Word} {k : State → State}
    (hk : ∀ v, Steady s v → EndsOrPauses E P s (k v)) : EndsOrPauses E P s (memWrite u dev reg w k) := by
  have hafter : Steady s (afterWrite u dev reg w) := h.of_kept (afterWrite_kept ..)
  rcases memWrite_cases u dev reg w k with ⟨-, hrun⟩ | ⟨e, -, hrun⟩
  · exact hrun ▸ hk _ hafter
  · exact hrun ▸ hafter.raise (hbus e)

/-- A read transaction ends the run with a bus error, or hands on a word and a state of the run (20_memory.md R56,
R57). -/
theorem Steady.memRead (h : Steady s u) {dev : Addr7} {reg : Byte} {k : Word → State → State}
    (hk : ∀ w v, Steady s v → EndsOrPauses E P s (k w v)) : EndsOrPauses E P s (memRead u dev reg k) := by
  have hafter : Steady s (afterRead u dev reg) := h.of_kept (afterRead_kept ..)
  rcases memRead_cases u dev reg k with ⟨b0, b1, -, hrun⟩ | ⟨e, -, hrun⟩
  · exact hrun ▸ hk _ _ hafter
  · exact hrun ▸ hafter.raise (hbus e)

/-! ## Unit U1 -/

/-- ADC.RDCFG, ADC.RDV, ADC.RDY and the last steps of ADC.RDSINGLE: one read, and a return. -/
theorem Steady.memRead_returnOk (h : Steady s u) (q q' : Seq) (dev : Addr7) (reg : Byte)
    (value : Word → State → Value) :
    EndsOrPauses E P s (Machine.memRead (Machine.goTo u q) dev reg fun w v =>
      Machine.returnOk (Machine.goTo v q') (value w v)) :=
  (h.goTo q).memRead hbus fun _ _ hv => (hv.goTo q').returnOk _

/-- ADC.WRCFG, once the configuration it sends is held (40_adc.md R136). -/
theorem adcWriteHeld_endsOrPauses (cfg : Option AdcCfg) (s : State) :
    EndsOrPauses E P (heldAfterWrcfg s cfg) (adcWriteHeld cfg s) := by
  have hheld : Steady (heldAfterWrcfg s cfg) (heldAfterWrcfg (goTo s (.adcWrcfg 1)) cfg) := by
    cases cfg <;> exact ⟨rfl, rfl, rfl⟩
  exact ((hheld.goTo _).goTo _).memWrite hbus fun v hv => (hv.goTo _).returnOk _

section
variable (hlimit : ∀ n, s.params.adcPollLimit = some n → E (.conversionTimeout n)) (hpause : P (.adcRdsingle 4))
include hlimit hpause

/-- A turn of the poll: the limit, or a status read, and then the sample or the pause at step 4 (40_adc.md R140). -/
theorem Steady.adcPoll (h : Steady s u) (polls : Nat) : EndsOrPauses E P s (adcPoll polls u) := by
  obtain ⟨hparams, -⟩ := id h
  unfold Machine.adcPoll
  dsimp only
  split
  · next hreached => exact (h.goTo _).raise (hlimit polls (hparams ▸ hreached))
  · refine (h.goTo _).memRead hbus fun w v hv => ?_
    have h6 : Steady s (Machine.goTo { v with adcPolls := some (polls + 1) } (.adcRdsingle 6)) := hv
    split
    · exact h6.memRead_returnOk hbus _ _ _ _ _
    · exact .paused h6 hpause

theorem Steady.adcSingle (h : Steady s u) (mux : Option Mux) : EndsOrPauses E P s (adcSingle mux u) := by
  unfold Machine.adcSingle
  dsimp only
  refine ((h.goTo _).goTo _).memWrite hbus fun v hv => ?_
  have hstart : Steady s { Machine.goTo v (.adcRdsingle 3) with adcPolls := some 0 } := hv
  exact hstart.adcPoll hbus hlimit hpause 0

end

/-! ## Unit U2 -/

section
variable {ch : Nat} (hdone : E (.measurementNotComplete ch))
include hdone

/-- A measurement ends the run, or hands on a result and a state of the run (41_cap.md R188). -/
theorem Steady.measureChannel (h : Steady s u) (at_ : Nat → Seq) (capdac : Nat) {k : Word24 → State → State}
    (hk : ∀ raw v, Steady s v → EndsOrPauses E P s (k raw v)) :
    EndsOrPauses E P s (measureChannel at_ ch capdac u k) := by
  refine (h.goTo _).memWrite hbus fun s1 h1 => ?_
  refine (h1.goTo _).memWrite hbus fun s2 h2 => ?_
  have h3 : Steady s (delay .ms (settleMs s2.capRate) (Machine.goTo s2 (at_ 3))) := h2
  refine (h3.goTo _).memRead hbus fun status s4 h4 => ?_
  dsimp only
  split
  · refine (h4.goTo _).memRead hbus fun msb s6 h6 => ?_
    refine (h6.goTo _).memRead hbus fun lsb s7 h7 => ?_
    exact hk _ _ (h7.goTo _)
  · exact (h4.goTo _).raise hdone

/-- A turn of the search: the limit, or a measurement and what it decides (41_cap.md R194). -/
theorem Steady.capSearch (hlimit : ∀ n, s.params.capSearchLimit = some n → E (.searchNotConverged n))
    (hpause : P (.capRead ch 2)) (h : Steady s u) (dac iter : Nat) :
    EndsOrPauses E P s (capSearch ch dac iter u) := by
  obtain ⟨hparams, -⟩ := id h
  rw [capSearch_eq_carryOut]
  split
  · next hreached => exact h.raise (hlimit iter (hparams ▸ hreached))
  · refine (h.goTo _).measureChannel hbus hdone _ dac fun raw v hv => ?_
    have hcounted : Steady s { v with capIter := some (iter + 1) } := hv
    exact hcounted.carryOut hpause _ _

end

end

end

/-! ## The operations -/

section
variable {s t : State}

/-- What an operation holds before its first transaction: ADC.WRCFG alone may replace the configuration
(40_adc.md R136 step 1). -/
def heldBy (i : Instr) (s : State) : State :=
  match i with
  | .adcWrcfg cfg => heldAfterWrcfg s cfg
  | _ => s

/-- An accepted operation has come to rest: it has ended with `Ok`, whatever it wrote, or as its rows of the outcome
table allow, with the registers it held. -/
def AcceptedRests (i : Instr) (s t : State) : Prop :=
  (∃ u value, t = returnOk u value) ∨
    EndsOrPauses (MayEndWith s.params i) (fun _ => MayPause i) (heldBy i s) t

/-- The index check ends the operation with the index it was given, when it is above 15 (42_shift.md R221). -/
theorem acceptedRests_checkIndex {i : Instr} {idx : Nat} {q : Seq} {k : Fin 16 → State → State}
    (hrow : 15 < idx → MayEndWith s.params i (.indexOutOfRange idx)) (hheld : heldBy i s = s)
    (hk : ∀ n, ∃ u value, k n (goTo s q) = returnOk u value) : AcceptedRests i s (checkIndex idx (goTo s q) k) := by
  rcases checkIndex_cases idx (goTo s q) k with ⟨hlt, hrun⟩ | ⟨hle, hrun⟩
  · exact .inl (hrun ▸ hk _)
  · rw [AcceptedRests, hheld, hrun]
    exact .inr (((Steady.refl s).goTo q).raise (hrow hle))

/-- Every operation that is accepted comes to rest as the outcome table has it. -/
theorem exec_acceptedRests (i : Instr) (s : State) : Answers (AcceptedRests i s) (exec i s) := by
  have h := Steady.refl s
  cases i with
  | adcNew addr =>
    change Answers _ (execAdcNew addr s)
    unfold execAdcNew
    split
    · exact .inl ⟨_, _, rfl⟩
    · exact .inr ((h.goTo _).raise rfl)
  | adcWith | capDecm | capDect =>
    simp only [exec, execAdcWith, execCapDecm, execCapDect]
    split
    · exact .inl ⟨_, _, rfl⟩
    · trivial
  | adcEnc | adcDec | adcScale | capEncm | capEnct | capAsm | capSetrate | srPack | srTx | srFlush =>
    exact .inl ⟨_, _, rfl⟩
  | wordAdcConfig | wordAdcConv | wordCapConf | wordCapTrig | wordCapMsb | wordCapLsb | wordSrFrame =>
    exact .inl ⟨_, _, rfl⟩
  | adcWrcfg cfg =>
    exact answers_needAdc fun _ => .inr (adcWriteHeld_endsOrPauses (fun _ => .inl ⟨cfg, rfl⟩) cfg s)
  | adcRdcfg | adcRdv | adcRdy =>
    exact answers_needAdc fun _ => .inr (h.memRead_returnOk (fun _ => by simp [MayEndWith]) _ _ _ _ _)
  | adcRdsingle mux =>
    have hpause : MayPause (.adcRdsingle mux) := .inl ⟨mux, rfl⟩
    exact answers_needAdc fun _ =>
      .inr (h.adcSingle (fun _ => by simp [MayEndWith]) (fun _ hn => ⟨hn, mux, rfl⟩) hpause mux)
  | capMeas ch capdac =>
    exact answers_unless fun _ => answers_unless fun _ =>
      .inr (h.measureChannel (fun _ => by simp [MayEndWith]) (.inl ⟨capdac, rfl⟩) _ capdac fun _ _ hv => hv.returnOk _)
  | capRead ch =>
    have hstart : Steady s { goTo s (.capRead ch 1) with capDac := some 0, capIter := some 0 } := h
    have hpause : MayPause (.capRead ch) := .inr ⟨ch, rfl⟩
    exact answers_unless fun _ =>
      .inr (hstart.capSearch (fun _ => by simp [MayEndWith]) (.inr rfl) (fun _ hn => ⟨hn, ch, rfl⟩) hpause 0 0)
  | capPf | capAf | pwmDiv => exact answers_unless fun _ => .inl ⟨_, _, rfl⟩
  | srSet idx | srClr idx | srGet idx | srApplyclr idx | srClrapply idx =>
    exact acceptedRests_checkIndex (fun hn => ⟨hn, by simp⟩) rfl fun _ => ⟨_, _, rfl⟩
  | pwmTop => exact answers_unless fun _ => answers_unless fun _ => .inl ⟨_, _, rfl⟩
  | pwmCmp => exact answers_unless fun _ => answers_needTop (.inl ⟨_, _, rfl⟩)
  | pwmSet =>
    exact answers_unless fun _ => answers_unless fun _ => answers_unless fun _ => answers_unless fun _ =>
      .inl ⟨_, _, rfl⟩

/-! ### What the outcome table gives an accepted operation -/

/-- Every operation but ADC.WRCFG with an operand holds what it found. -/
theorem heldBy_eq_self {i : Instr} (hi : ∀ c, i ≠ .adcWrcfg (some c)) (s : State) : heldBy i s = s := by
  unfold heldBy
  split
  · next cfg =>
    cases cfg with
    | none => rfl
    | some c => exact absurd rfl (hi c)
  · rfl

/-- What is held differs in the configuration at most (40_adc.md R136 step 1). -/
theorem heldBy_persistent (i : Instr) (s : State) :
    { (heldBy i s).persistent with adcCfg := s.adcCfg } = s.persistent := by
  unfold heldBy heldAfterWrcfg
  split
  · split <;> rfl
  · rfl

theorem heldBy_outcome (i : Instr) (s : State) : (heldBy i s).outcome = s.outcome := by
  unfold heldBy heldAfterWrcfg
  split
  · split <;> rfl
  · rfl

theorem AcceptedRests.endsOrPauses_of_error {i : Instr} (h : AcceptedRests i s t) {o : OpOutcome}
    (ht : t.outcome = some o) (ho : o.isError = true) :
    EndsOrPauses (MayEndWith s.params i) (fun _ => MayPause i) (heldBy i s) t := by
  rcases h with ⟨u, value, rfl⟩ | h
  · cases ht
    cases ho
  · exact h

theorem AcceptedRests.mayEndWith {i : Instr} (h : AcceptedRests i s t) (hs : s.outcome = none) {o : OpOutcome}
    (ht : t.outcome = some o) (ho : o.isError = true) : MayEndWith s.params i o :=
  (h.endsOrPauses_of_error ht ho).error_allowed ((heldBy_outcome i s).trans hs) ht ho

theorem AcceptedRests.mayPause {i : Instr} (h : AcceptedRests i s t) (hs : s.outcome = none) (hb : t.busy = true) :
    MayPause i := by
  rcases h with ⟨u, value, rfl⟩ | h
  · cases hb
  · obtain ⟨⟨-, -, hpause⟩, -⟩ := h.pause_allowed ((heldBy_outcome i s).trans hs) hb
    exact hpause

/-! ## The turns of a running operation -/

/-- The errors of a turn of ADC.RDSINGLE (60_exceptions.md R279). -/
def PollError (p : Params) (o : OpOutcome) : Prop :=
  (∃ e, o = .busError e) ∨ ∃ n, o = .conversionTimeout n ∧ p.adcPollLimit = some n

/-- The errors of a turn of CAP.READ on channel `ch` (60_exceptions.md R279). -/
def SearchError (p : Params) (ch : Nat) (o : OpOutcome) : Prop :=
  (∃ e, o = .busError e) ∨ o = .measurementNotComplete ch ∨ ∃ n, o = .searchNotConverged n ∧ p.capSearchLimit = some n

/-- A turn polls or searches, and ends with an error of its own or pauses where it stood (10_state.md R38). -/
theorem resume_endsOrPauses (h : resume s = .next t) :
    (s.seq = some (.adcRdsingle 4) ∧ EndsOrPauses (PollError s.params) (· = .adcRdsingle 4) s t) ∨
    ∃ ch, s.seq = some (.capRead ch 2) ∧ EndsOrPauses (SearchError s.params ch) (· = .capRead ch 2) s t := by
  have hs := Steady.refl s
  rcases resume_cases h with ⟨polls, hq, -, rfl⟩ | ⟨ch, dac, iter, hq, -, -, -, -, rfl⟩
  · refine .inl ⟨hq, hs.adcPoll (fun e => ?_) (fun n hn => ?_) (P := (· = .adcRdsingle 4)) rfl polls⟩
    · exact .inl ⟨e, rfl⟩
    · exact .inr ⟨n, rfl, hn⟩
  · refine .inr ⟨ch, hq, hs.capSearch (fun e => ?_) ?_ (fun n hn => ?_) (P := (· = .capRead ch 2)) rfl _ iter⟩
    · exact .inl ⟨e, rfl⟩
    · exact .inr (.inl rfl)
    · exact .inr (.inr ⟨n, rfl, hn⟩)

/-- A turn that may pause at one label only, and is left running, stands at that label. -/
theorem EndsOrPauses.paused_at {E : OpOutcome → Prop} {q : Seq} (h : EndsOrPauses E (· = q) s t) (hs : s.outcome = none)
    (hb : t.busy = true) : t.seq = some q ∧ t.outcome = none := by
  obtain ⟨⟨_, hseq, rfl⟩, hout⟩ := h.pause_allowed hs hb
  exact ⟨hseq, hout⟩

end

/-- Settles O12: an operation that ends with an error writes a persistent register in ADC.WRCFG's first step only, and
a turn of a running one writes none. -/
theorem errorsLeavePersistentState : Obligations.ErrorsLeavePersistentState := by
  refine ⟨fun i s t o hs hrun ht ho => ?_, fun s t hb hrun => ?_⟩
  · have hpers : t.persistent = (heldBy i s).persistent :=
      (((exec_acceptedRests i s).of_next hrun).endsOrPauses_of_error ht ho).persistent_eq
    exact ⟨fun hi => by rw [hpers, heldBy_eq_self hi], hpers ▸ heldBy_persistent i s⟩
  · rcases resume_endsOrPauses ((step_of_busy hb).symm.trans hrun) with ⟨-, h⟩ | ⟨ch, -, h⟩
    · exact h.persistent_eq
    · exact h.persistent_eq

/-- Settles O13: an accepted operation comes to rest as its rows of the outcome table have it, and a turn ends or
pauses as those of the operation that runs. -/
theorem outcomesFollowTheMatrix : Obligations.OutcomesFollowTheMatrix := by
  refine ⟨fun i s t hs _ hrun => ?_, fun s t hs hb hrun => ?_⟩
  · have h := (exec_acceptedRests i s).of_next hrun
    exact ⟨fun _ ht => h.mayEndWith hs ht rfl, fun _ ht => h.mayEndWith hs ht rfl, fun _ ht => h.mayEndWith hs ht rfl,
      fun _ ht => h.mayEndWith hs ht rfl, fun _ ht => h.mayEndWith hs ht rfl, fun _ ht => h.mayEndWith hs ht rfl,
      h.mayPause hs⟩
  · rcases resume_endsOrPauses ((step_of_busy hb).symm.trans hrun) with ⟨hq, h⟩ | ⟨ch, hq, h⟩
    · exact .inl ⟨hq, h.paused_at hs, fun _ => h.error_allowed hs⟩
    · exact .inr ⟨ch, hq, h.paused_at hs, fun _ => h.error_allowed hs⟩

end Sys2Proof.Machine
end

section
/-! PROOFS. Reset and what may not be issued (spec/70_reset_and_hazards.md R300, R306, R315): the block after reset, and
the operations that are refused before they do anything. -/

namespace Sys2Proof.Machine

/-! ## After reset (70_reset_and_hazards.md R300) -/

theorem idle_reset : State.reset.Idle := ⟨rfl, rfl, rfl, rfl, rfl, rfl⟩

theorem frame_reset (i : Fin 16) : State.reset.frame[i] = false := Vector.getElem_replicate i.isLt

/-- Settles O6: the registers as reset writes them, the frame bit by bit. -/
theorem resetLeavesTheStatedValues : Obligations.ResetLeavesTheStatedValues :=
  ⟨rfl, rfl, frame_reset, rfl, rfl, rfl, idle_reset, rfl⟩

/-! ## Operations refused before they do anything (70_reset_and_hazards.md R306, R315) -/

theorem needAdc_of_absent {s : State} (h : s.adcPresent = false) (run : State) :
    needAdc s run = .refused .adcNotConstructed := if_neg (Bool.eq_false_iff.1 h)

theorem needChannel_of_lt {ch : Nat} (h : 3 < ch) (r : Result) :
    needChannel ch r = .refused (.channelOutOfDomain ch) := if_pos h

theorem needChannel_of_le {ch : Nat} (h : ch ≤ 3) (r : Result) : needChannel ch r = r := if_neg (not_lt.2 h)

/-- Settles O22: each of the five begins with the check that the unit is constructed. -/
theorem adcBusOperationsNeedConstruction : Obligations.AdcBusOperationsNeedConstruction := fun _ h =>
  ⟨fun _ => needAdc_of_absent h _, needAdc_of_absent h _, fun _ => needAdc_of_absent h _, needAdc_of_absent h _,
    needAdc_of_absent h _⟩

/-- Settles O40: the channel is checked first, and the calibration value after it. -/
theorem capOperandsOutsideTheirDomainAreRefused : Obligations.CapOperandsOutsideTheirDomainAreRefused := by
  refine fun s ch capdac raw => ⟨fun hch => ?channel, fun hch hgt => ?ceiling, fun hgt => ?scaling⟩
  case channel => exact ⟨needChannel_of_lt hch _, needChannel_of_lt hch _⟩
  case ceiling => exact (needChannel_of_le hch _).trans (needCapdac_of_lt hgt _)
  case scaling => exact ⟨needCapdac_of_lt hgt _, needCapdac_of_lt hgt _⟩

end Sys2Proof.Machine
end

section
/-! PROOFS. What stands beside the units: the step of an idle block and words decoded at the port (spec/30_encoding.md
R108 to R112), the invariant after reset (spec/10_state.md R41), the register-word rows (spec/30_encoding.md R80),
CONFIG words through decoder and encoder (R93), and the tops that do not fit their counter (spec/43_pwm.md R256). -/

namespace Sys2Proof.Machine

/-! ## The port and the step -/

/-- An idle block runs the operation that the host's next command decodes to (10_state.md R38, 30_encoding.md R108). -/
theorem step_of_decode_ok {s : State} {c : Command} {rest : List Command} {i : Instr}
    (hb : s.busy = false) (hh : s.host = c :: rest) (hd : decode s.params c = .ok i) :
    step s = exec i (acceptCommand s rest) := by
  simp [step, hb, hh, hd]

/-- Settles O1: the port takes the command, and the operation starts from there. -/
theorem stepRunsTheDecodedOperation : Obligations.StepRunsTheDecodedOperation :=
  fun _ _ _ _ => step_of_decode_ok

/-- Settles O4: four commands are those of their operations' rows, one leaves its flag out, and the register word is the
encoder's. -/
theorem sampleWordsDecode : Obligations.SampleWordsDecode := by
  refine ⟨?adcNew, ?capRead, ?srTx, ?pwmTop, ?pwmTopAbsent, ?capConf⟩
  case adcNew => exact decode_encode_of_row (Laws.OpcodeRow.adcNew 0x48) rfl
  case capRead => exact decode_encode_of_row (Laws.OpcodeRow.capRead 1) rfl
  case srTx => exact decode_encode_of_row (Laws.OpcodeRow.srTx 0x8000) rfl
  case pwmTop => exact decode_encode_of_row (Laws.OpcodeRow.pwmTop 1000 true) rfl
  case pwmTopAbsent => rfl
  case capConf =>
    have hword : encode defaultParams (.wordCapConf ⟨.cin3, .capdac, 5⟩) = .reg .capConf 0x50A0 := by decide
    exact hword ▸ decodeOfEncodeIsIdentity defaultParams (.wordCapConf ⟨.cin3, .capdac, 5⟩) valid_defaultParams rfl

/-! ## Reset -/

theorem sound_reset : State.reset.Sound := ⟨valid_defaultParams, rfl, nofun, ⟨rfl, rfl, rfl⟩, rfl⟩

/-- Settles O7: no operation runs after reset, and no unit is constructed. -/
theorem resetMeetsTheInvariant : Obligations.ResetMeetsTheInvariant := inv_iff.2 ⟨sound_reset, rfl, nofun⟩

/-! ## The register-word rows -/

/-- Settles O60: each row is one step that returns its value. -/
theorem registerWordRowsReturnTheirValue : Obligations.RegisterWordRowsReturnTheirValue := fun _ h =>
  ⟨fun _ _ => next_returnOk_goTo_of_idle h _ _, fun _ => next_returnOk_goTo_of_idle h _ _,
    fun _ => next_returnOk_goTo_of_idle h _ _, fun _ => next_returnOk_goTo_of_idle h _ _,
    fun _ => next_returnOk_goTo_of_idle h _ _, fun _ => next_returnOk_goTo_of_idle h _ _,
    fun _ => next_returnOk_goTo_of_idle h _ _⟩

/-! ## CONFIG words through decoder and encoder -/

/-- The fields of a CONFIG word side by side in the default layout, with the trigger's bit cleared and another gain code
(30_encoding.md R82). -/
def configFields (w : Word) (gain : BitVec 3) : Word :=
  0#1 ++ w.extractLsb' 12 3 ++ gain ++ w.extractLsb' 8 1 ++ w.extractLsb' 5 3 ++ w.extractLsb' 4 1 ++
    w.extractLsb' 3 1 ++ w.extractLsb' 2 1 ++ w.extractLsb' 0 2

/-- The gain code can be read back, so different codes make different words. -/
theorem configFields_injective (w : Word) : Function.Injective (configFields w) := by
  refine Function.LeftInverse.injective (g := BitVec.extractLsb' 9 3) fun gain => ?_
  refine BitVec.eq_of_getLsbD_eq fun i hi => ?_
  simp only [configFields, BitVec.getLsbD_extractLsb', BitVec.getLsbD_append]
  interval_cases i <;> simp

/-- A CONFIG word's own gain code gives the word, but for the trigger's bit. -/
theorem configFields_self (w : Word) : configFields w (w.extractLsb' 9 3) = w &&& 0x7FFF := by
  refine BitVec.eq_of_getLsbD_eq fun i hi => ?_
  simp only [configFields, BitVec.getLsbD_and, BitVec.getLsbD_append, BitVec.getLsbD_extractLsb']
  interval_cases i <;> simp

/-- Decoding and encoding keep every field of a CONFIG word but the trigger, which is cleared, and the gain code, which
becomes that of the gain that was read (30_encoding.md R82, R83, R85). -/
theorem adcEncode_adcDecodeCfg_default (w : Word) :
    adcEncode defaultParams (adcDecodeCfg defaultParams w) =
      configFields w (BitVec.ofNat 3 (min 5 (w.extractLsb' 9 3).toNat)) := by
  obtain ⟨-, hadc, hadcCodes, -⟩ := valid_defaultParams
  obtain ⟨cmux, cpga, cmode, cdr, ccompMode, ccompPol, ccompLat, ccompQue⟩ := adcCodes_default
  have hreads := adcDecodeCfg_reads hadc hadcCodes w
  simp only [cmux, cpga, cmode, cdr, ccompMode, ccompPol, ccompLat, ccompQue,
    BitField.get_eq_toNat_extractLsb'] at hreads
  obtain ⟨hmux, hpga, hg5, hmode, hdr, hcompMode, hcompPol, hcompLat, hcompQue⟩ := hreads
  rw [adcEncode_default, hmux, pga_index_of_read hpga hg5, hmode, hdr, hcompMode, hcompPol, hcompLat, hcompQue]
  simp only [BitVec.ofNat_toNat]
  rfl

/-- A gain code stays when it is read as a gain exactly when it is not 6 or 7, the codes of no gain
(30_encoding.md R85). -/
theorem ofNat_min_five_eq_iff (gain : BitVec 3) :
    BitVec.ofNat 3 (min 5 gain.toNat) = gain ↔ ¬ (gain = 6 ∨ gain = 7) := by
  revert gain
  decide

/-- Settles O16: of the word's fields the gain's alone can change, and does so where it reads as `G5`. -/
theorem adcWordsSurviveUnlessGainUnused : Obligations.AdcWordsSurviveUnlessGainUnused := by
  intro w
  rw [adcEncode_adcDecodeCfg_default, ← configFields_self, (configFields_injective w).eq_iff]
  exact ofNat_min_five_eq_iff _

/-! ## Tops that do not fit their counter -/

section
variable {p : Params} {f : BitVec 32}

/-- A bound on the quotient, without the division (43_pwm.md R253). -/
theorem le_pwmQuotient_iff (hf : f.toNat ≠ 0) {n : Nat} :
    n ≤ pwmQuotient p f ↔ n * (f.toNat * pwmDivider f) ≤ p.refClkHz :=
  Nat.le_div_iff_mul_le (mul_pwmDivider_pos hf)

theorem fitFlag_eq_false_iff {top : Nat} : fitFlag p top = false ↔ 2 ^ p.pwmTopBits ≤ top := by
  rw [fitFlag, decide_eq_false_iff_not, not_lt]

/-- Where the top does not fit its counter, without the division (43_pwm.md R253, R256). -/
theorem fitFlag_pwmTopOf_false_eq_false_iff (hf : f.toNat ≠ 0) :
    fitFlag p (pwmTopOf p f false) = false ↔ (2 ^ p.pwmTopBits + 1) * (f.toNat * pwmDivider f) ≤ p.refClkHz := by
  have hpos := Nat.two_pow_pos p.pwmTopBits
  rw [fitFlag_eq_false_iff, ← le_pwmQuotient_iff hf]
  simp only [pwmTopOf, Bool.false_eq_true, reduceIte]
  omega

/-- With phase-correct the top is half as great, so the quotient may be twice as great (43_pwm.md R253, R256). -/
theorem fitFlag_pwmTopOf_true_eq_false_iff (hf : f.toNat ≠ 0) :
    fitFlag p (pwmTopOf p f true) = false ↔
      (2 * 2 ^ p.pwmTopBits + 1) * (f.toNat * pwmDivider f) ≤ p.refClkHz := by
  have hpos := Nat.two_pow_pos p.pwmTopBits
  rw [fitFlag_eq_false_iff, ← le_pwmQuotient_iff hf]
  simp only [pwmTopOf, reduceIte]
  omega

/-- Below 10 Hz the divider is the greatest (43_pwm.md R252). -/
theorem pwmDivider_of_lt_ten (h : f.toNat < 10) : pwmDivider f = 255 := by
  unfold pwmDivider
  split_ifs <;> omega

/-- From 10 Hz on the divided frequency is at least 2000 Hz: each range of R252 begins there. -/
theorem two_thousand_le_mul_pwmDivider (h : 10 ≤ f.toNat) : 2000 ≤ f.toNat * pwmDivider f := by
  unfold pwmDivider
  split_ifs <;> omega

/-- The divided frequency is small at the lowest frequencies only (43_pwm.md R252). -/
theorem mul_pwmDivider_le_iff {n : Nat} (hn : n < 2000) : f.toNat * pwmDivider f ≤ n ↔ f.toNat * 255 ≤ n := by
  rcases lt_or_ge f.toNat 10 with hlow | hhigh
  · rw [pwmDivider_of_lt_ten hlow]
  · have hdivided := two_thousand_le_mul_pwmDivider hhigh
    omega

end

/-- Settles O59: a top that does not fit means a divided frequency of at most 1907 Hz, and of at most 953 Hz with
phase-correct. -/
theorem topFitsExceptAtLowFrequencies : Obligations.TopFitsExceptAtLowFrequencies := by
  intro f hpos _
  have hf : f.toNat ≠ 0 := Nat.one_le_iff_ne_zero.1 hpos
  constructor
  · have hdivided := mul_pwmDivider_le_iff (f := f) (n := 1907) (by decide)
    rw [fitFlag_pwmTopOf_false_eq_false_iff hf]
    simp only [defaultParams]
    omega
  · have hdivided := mul_pwmDivider_le_iff (f := f) (n := 953) (by decide)
    rw [fitFlag_pwmTopOf_true_eq_false_iff hf]
    simp only [defaultParams]
    omega

end Sys2Proof.Machine
end
